-- ==== Sys2Proof/Word.lean ====
section
/-! DEFINITION. The byte and the word of the machine (00_scope.md R7, R8). -/

namespace Sys2Proof

/-- A byte: an integer in 0..255 (R8). Arithmetic on it wraps modulo 256, which is the spec's `wrap8`. -/
abbrev Byte := BitVec 8

/-- A word, or address: an integer in 0..65535 (R8). Arithmetic on it wraps modulo 65536, the spec's `wrap16`. -/
abbrev Word := BitVec 16

end Sys2Proof
end

