-- ==== Sys2Proof/Machine/Bits.lean ====
section
/-! DEFINITION. Bit fields, byte order and extension: the notation of 00_scope.md R8. -/

namespace Sys2Proof.Machine

/-- `w[7:0]` (R8). -/
def lowByte (w : Word) : Byte := w.extractLsb' 0 8

/-- `w[15:8]` (R8). -/
def highByte (w : Word) : Byte := w.extractLsb' 8 8

/-- `page(w)`, the high byte of a word (R8). -/
def page (w : Word) : Byte := highByte w

/-- `hi:lo`, the word with `hi` in bits 15:8 and `lo` in bits 7:0 (R8). -/
def wordOf (hi lo : Byte) : Word := hi ++ lo

/-- `zext_16(b)` (R8). -/
def zext16 (b : Byte) : Word := b.setWidth 16

/-- `sext_16(b)` (R8). -/
def sext16 (b : Byte) : Word := b.signExtend 16

/-- Bit `i` of a byte, `v[i]` (R8). -/
def bit (v : Byte) (i : Nat) : Bool := v.getLsbD i

/-- A flag as the byte 0 or 1 (R8, R110). -/
def flagByte (b : Bool) : Byte := if b then 1 else 0

/-- The pages of two words differ: a page crossing (R13). -/
def pagesDiffer (u v : Word) : Bool := page u != page v

end Sys2Proof.Machine
end

