-- ==== Sys2Proof/Syntax.lean ====
section
/-! DEFINITION. The syntax of the instruction set: addressing modes, operands, operations, forms, and the 151
instructions, one constructor for each row of opcode_table.json (30_encoding.md R300). -/

namespace Sys2Proof

/-- The 12 addressing-mode ids (R410). -/
inductive Mode where
  | implied | immediate | relative | zeroPage | zeroPageX | zeroPageY | absolute | absoluteX | absoluteY | indirect
  | indexedIndirectX | indirectIndexedY
  deriving DecidableEq, Repr

/-- The operands that resolve to an address (R414 to R422), with their operand bytes (R303, R304). -/
inductive MemOperand where
  | zeroPage (z : Byte)
  | zeroPageX (z : Byte)
  | zeroPageY (z : Byte)
  | absolute (addr : Word)
  | absoluteX (addr : Word)
  | absoluteY (addr : Word)
  | indirect (addr : Word)
  | indexedIndirectX (z : Byte)
  | indirectIndexedY (z : Byte)
  deriving DecidableEq, Repr

/-- What a read executor loads from: an immediate byte or an address (R430). -/
inductive ReadOperand where
  | immediate (b : Byte)
  | memory (m : MemOperand)
  deriving DecidableEq, Repr

/-- What a read-modify-write executor changes: A, under mode Implied, or a byte of memory (R411, R432). -/
inductive ModifyOperand where
  | accumulator
  | memory (m : MemOperand)
  deriving DecidableEq, Repr

/-- The read operations (R430). -/
inductive ReadOp where
  | adc | sbc | and | ora | eor | cmp | cpx | cpy | bit | lda | ldx | ldy
  deriving DecidableEq, Repr

/-- The write operations (R431). -/
inductive StoreOp where
  | sta | stx | sty
  deriving DecidableEq, Repr

/-- The read-modify-write operations (R432). -/
inductive ModifyOp where
  | asl | lsr | rol | ror | inc | dec
  deriving DecidableEq, Repr

/-- The branches (R701 to R708). -/
inductive BranchOp where
  | bcc | bcs | beq | bne | bmi | bpl | bvc | bvs
  deriving DecidableEq, Repr

/-- The operations whose only mode is Implied (R433). -/
inductive ImpliedOp where
  | inx | iny | dex | dey
  | sec | clc | sed | cld | sei | cli | clv
  | tax | tay | txa | tya | tsx | txs
  | pha | php | pla | plp
  | rts | brk | rti | nop
  deriving DecidableEq, Repr

/-- An operation id (R301): one of the 56 mnemonics, in the classes of R430 to R433. -/
inductive Op where
  | read (o : ReadOp)
  | store (o : StoreOp)
  | modify (o : ModifyOp)
  | branch (o : BranchOp)
  | jmp
  | jsr
  | implied (o : ImpliedOp)
  deriving DecidableEq, Repr

/-- An operation with its operand. Not every form is an instruction: `Form.wellFormed` says which are. -/
inductive Form where
  | read (o : ReadOp) (src : ReadOperand)
  | store (o : StoreOp) (dst : MemOperand)
  | modify (o : ModifyOp) (target : ModifyOperand)
  | branch (o : BranchOp) (rel : Byte)
  | jump (target : MemOperand)
  | call (target : Word)
  | implied (o : ImpliedOp)
  deriving DecidableEq, Repr

/-- The mode of an operand that resolves to an address. -/
def MemOperand.mode : MemOperand → Mode
  | .zeroPage _ => .zeroPage
  | .zeroPageX _ => .zeroPageX
  | .zeroPageY _ => .zeroPageY
  | .absolute _ => .absolute
  | .absoluteX _ => .absoluteX
  | .absoluteY _ => .absoluteY
  | .indirect _ => .indirect
  | .indexedIndirectX _ => .indexedIndirectX
  | .indirectIndexedY _ => .indirectIndexedY

/-- The mode of a form. The accumulator forms have mode Implied (R411). -/
def Form.mode : Form → Mode
  | .read _ (.immediate _) => .immediate
  | .read _ (.memory m) => m.mode
  | .store _ m => m.mode
  | .modify _ .accumulator => .implied
  | .modify _ (.memory m) => m.mode
  | .branch _ _ => .relative
  | .jump m => m.mode
  | .call _ => .absolute
  | .implied _ => .implied

/-- The operation of a form. -/
def Form.op : Form → Op
  | .read o _ => .read o
  | .store o _ => .store o
  | .modify o _ => .modify o
  | .branch o _ => .branch o
  | .jump _ => .jmp
  | .call _ => .jsr
  | .implied o => .implied o

/-- The instructions: one constructor for each of the 151 rows of the opcode table (R300). An argument of type
`Byte` is the operand byte, one of type `Word` the two operand bytes `byte2:byte1` (R304). -/
inductive Instr where
  | adcIndX (z : Byte)
  | adcZp (z : Byte)
  | adcImm (b : Byte)
  | adcAbs (addr : Word)
  | adcIndY (z : Byte)
  | adcZpX (z : Byte)
  | adcAbsY (addr : Word)
  | adcAbsX (addr : Word)
  | sbcIndX (z : Byte)
  | sbcZp (z : Byte)
  | sbcImm (b : Byte)
  | sbcAbs (addr : Word)
  | sbcIndY (z : Byte)
  | sbcZpX (z : Byte)
  | sbcAbsY (addr : Word)
  | sbcAbsX (addr : Word)
  | andIndX (z : Byte)
  | andZp (z : Byte)
  | andImm (b : Byte)
  | andAbs (addr : Word)
  | andIndY (z : Byte)
  | andZpX (z : Byte)
  | andAbsY (addr : Word)
  | andAbsX (addr : Word)
  | oraIndX (z : Byte)
  | oraZp (z : Byte)
  | oraImm (b : Byte)
  | oraAbs (addr : Word)
  | oraIndY (z : Byte)
  | oraZpX (z : Byte)
  | oraAbsY (addr : Word)
  | oraAbsX (addr : Word)
  | eorIndX (z : Byte)
  | eorZp (z : Byte)
  | eorImm (b : Byte)
  | eorAbs (addr : Word)
  | eorIndY (z : Byte)
  | eorZpX (z : Byte)
  | eorAbsY (addr : Word)
  | eorAbsX (addr : Word)
  | cmpIndX (z : Byte)
  | cmpZp (z : Byte)
  | cmpImm (b : Byte)
  | cmpAbs (addr : Word)
  | cmpIndY (z : Byte)
  | cmpZpX (z : Byte)
  | cmpAbsY (addr : Word)
  | cmpAbsX (addr : Word)
  | cpxImm (b : Byte)
  | cpxZp (z : Byte)
  | cpxAbs (addr : Word)
  | cpyImm (b : Byte)
  | cpyZp (z : Byte)
  | cpyAbs (addr : Word)
  | bitZp (z : Byte)
  | bitAbs (addr : Word)
  | ldaIndX (z : Byte)
  | ldaZp (z : Byte)
  | ldaImm (b : Byte)
  | ldaAbs (addr : Word)
  | ldaIndY (z : Byte)
  | ldaZpX (z : Byte)
  | ldaAbsY (addr : Word)
  | ldaAbsX (addr : Word)
  | ldxImm (b : Byte)
  | ldxZp (z : Byte)
  | ldxAbs (addr : Word)
  | ldxZpY (z : Byte)
  | ldxAbsY (addr : Word)
  | ldyImm (b : Byte)
  | ldyZp (z : Byte)
  | ldyAbs (addr : Word)
  | ldyZpX (z : Byte)
  | ldyAbsX (addr : Word)
  | staIndX (z : Byte)
  | staZp (z : Byte)
  | staAbs (addr : Word)
  | staIndY (z : Byte)
  | staZpX (z : Byte)
  | staAbsY (addr : Word)
  | staAbsX (addr : Word)
  | stxZp (z : Byte)
  | stxAbs (addr : Word)
  | stxZpY (z : Byte)
  | styZp (z : Byte)
  | styAbs (addr : Word)
  | styZpX (z : Byte)
  | aslZp (z : Byte)
  | aslAcc
  | aslAbs (addr : Word)
  | aslZpX (z : Byte)
  | aslAbsX (addr : Word)
  | lsrZp (z : Byte)
  | lsrAcc
  | lsrAbs (addr : Word)
  | lsrZpX (z : Byte)
  | lsrAbsX (addr : Word)
  | rolZp (z : Byte)
  | rolAcc
  | rolAbs (addr : Word)
  | rolZpX (z : Byte)
  | rolAbsX (addr : Word)
  | rorZp (z : Byte)
  | rorAcc
  | rorAbs (addr : Word)
  | rorZpX (z : Byte)
  | rorAbsX (addr : Word)
  | incZp (z : Byte)
  | incAbs (addr : Word)
  | incZpX (z : Byte)
  | incAbsX (addr : Word)
  | decZp (z : Byte)
  | decAbs (addr : Word)
  | decZpX (z : Byte)
  | decAbsX (addr : Word)
  | bcc (rel : Byte)
  | bcs (rel : Byte)
  | beq (rel : Byte)
  | bne (rel : Byte)
  | bmi (rel : Byte)
  | bpl (rel : Byte)
  | bvc (rel : Byte)
  | bvs (rel : Byte)
  | jmpAbs (addr : Word)
  | jmpInd (addr : Word)
  | jsr (addr : Word)
  | brk
  | php
  | clc
  | plp
  | sec
  | rti
  | pha
  | cli
  | rts
  | pla
  | sei
  | dey
  | txa
  | tya
  | txs
  | tay
  | tax
  | clv
  | tsx
  | iny
  | dex
  | cld
  | inx
  | nop
  | sed
  deriving DecidableEq, Repr

end Sys2Proof
end

