-- ==== Sys2Proof/WellFormed.lean ====
section
/-! DEFINITION. Which forms are instructions: the modes that the table of 30_encoding.md R300 gives each operation. -/

namespace Sys2Proof

/-- The modes R300 gives each read operation. -/
def ReadOp.modes : ReadOp → List Mode
  | .adc => [.indexedIndirectX, .zeroPage, .immediate, .absolute, .indirectIndexedY, .zeroPageX, .absoluteY, .absoluteX]
  | .sbc => [.indexedIndirectX, .zeroPage, .immediate, .absolute, .indirectIndexedY, .zeroPageX, .absoluteY, .absoluteX]
  | .and => [.indexedIndirectX, .zeroPage, .immediate, .absolute, .indirectIndexedY, .zeroPageX, .absoluteY, .absoluteX]
  | .ora => [.indexedIndirectX, .zeroPage, .immediate, .absolute, .indirectIndexedY, .zeroPageX, .absoluteY, .absoluteX]
  | .eor => [.indexedIndirectX, .zeroPage, .immediate, .absolute, .indirectIndexedY, .zeroPageX, .absoluteY, .absoluteX]
  | .cmp => [.indexedIndirectX, .zeroPage, .immediate, .absolute, .indirectIndexedY, .zeroPageX, .absoluteY, .absoluteX]
  | .cpx => [.immediate, .zeroPage, .absolute]
  | .cpy => [.immediate, .zeroPage, .absolute]
  | .bit => [.zeroPage, .absolute]
  | .lda => [.indexedIndirectX, .zeroPage, .immediate, .absolute, .indirectIndexedY, .zeroPageX, .absoluteY, .absoluteX]
  | .ldx => [.immediate, .zeroPage, .absolute, .zeroPageY, .absoluteY]
  | .ldy => [.immediate, .zeroPage, .absolute, .zeroPageX, .absoluteX]

/-- The modes R300 gives each write operation. -/
def StoreOp.modes : StoreOp → List Mode
  | .sta => [.indexedIndirectX, .zeroPage, .absolute, .indirectIndexedY, .zeroPageX, .absoluteY, .absoluteX]
  | .stx => [.zeroPage, .absolute, .zeroPageY]
  | .sty => [.zeroPage, .absolute, .zeroPageX]

/-- The modes R300 gives each read-modify-write operation. -/
def ModifyOp.modes : ModifyOp → List Mode
  | .asl => [.zeroPage, .implied, .absolute, .zeroPageX, .absoluteX]
  | .lsr => [.zeroPage, .implied, .absolute, .zeroPageX, .absoluteX]
  | .rol => [.zeroPage, .implied, .absolute, .zeroPageX, .absoluteX]
  | .ror => [.zeroPage, .implied, .absolute, .zeroPageX, .absoluteX]
  | .inc => [.zeroPage, .absolute, .zeroPageX, .absoluteX]
  | .dec => [.zeroPage, .absolute, .zeroPageX, .absoluteX]

/-- The modes R300 gives each operation. -/
def Op.modes : Op → List Mode
  | .read o => o.modes
  | .store o => o.modes
  | .modify o => o.modes
  | .branch _ => [.relative]
  | .jmp => [.absolute, .indirect]
  | .jsr => [.absolute]
  | .implied _ => [.implied]

/-- The opcode table has a row for the form's operation in the form's mode (R300). -/
def Form.wellFormed (f : Form) : Bool := f.op.modes.contains f.mode

end Sys2Proof
end

