-- ==== Sys2Proof/Decode.lean ====
section
/-! DEFINITION. Instruction encoding (30_encoding.md): the form of each instruction, its row of R300, the 16 x 16
opcode map of R305, the dispatch table, the decoder, and the encoder. -/

namespace Sys2Proof

/-- The operation and operand each instruction stands for (R300, R304). -/
def Instr.form : Instr → Form
  | .adcIndX v => .read .adc (.memory (.indexedIndirectX v))
  | .adcZp v => .read .adc (.memory (.zeroPage v))
  | .adcImm v => .read .adc (.immediate v)
  | .adcAbs v => .read .adc (.memory (.absolute v))
  | .adcIndY v => .read .adc (.memory (.indirectIndexedY v))
  | .adcZpX v => .read .adc (.memory (.zeroPageX v))
  | .adcAbsY v => .read .adc (.memory (.absoluteY v))
  | .adcAbsX v => .read .adc (.memory (.absoluteX v))
  | .sbcIndX v => .read .sbc (.memory (.indexedIndirectX v))
  | .sbcZp v => .read .sbc (.memory (.zeroPage v))
  | .sbcImm v => .read .sbc (.immediate v)
  | .sbcAbs v => .read .sbc (.memory (.absolute v))
  | .sbcIndY v => .read .sbc (.memory (.indirectIndexedY v))
  | .sbcZpX v => .read .sbc (.memory (.zeroPageX v))
  | .sbcAbsY v => .read .sbc (.memory (.absoluteY v))
  | .sbcAbsX v => .read .sbc (.memory (.absoluteX v))
  | .andIndX v => .read .and (.memory (.indexedIndirectX v))
  | .andZp v => .read .and (.memory (.zeroPage v))
  | .andImm v => .read .and (.immediate v)
  | .andAbs v => .read .and (.memory (.absolute v))
  | .andIndY v => .read .and (.memory (.indirectIndexedY v))
  | .andZpX v => .read .and (.memory (.zeroPageX v))
  | .andAbsY v => .read .and (.memory (.absoluteY v))
  | .andAbsX v => .read .and (.memory (.absoluteX v))
  | .oraIndX v => .read .ora (.memory (.indexedIndirectX v))
  | .oraZp v => .read .ora (.memory (.zeroPage v))
  | .oraImm v => .read .ora (.immediate v)
  | .oraAbs v => .read .ora (.memory (.absolute v))
  | .oraIndY v => .read .ora (.memory (.indirectIndexedY v))
  | .oraZpX v => .read .ora (.memory (.zeroPageX v))
  | .oraAbsY v => .read .ora (.memory (.absoluteY v))
  | .oraAbsX v => .read .ora (.memory (.absoluteX v))
  | .eorIndX v => .read .eor (.memory (.indexedIndirectX v))
  | .eorZp v => .read .eor (.memory (.zeroPage v))
  | .eorImm v => .read .eor (.immediate v)
  | .eorAbs v => .read .eor (.memory (.absolute v))
  | .eorIndY v => .read .eor (.memory (.indirectIndexedY v))
  | .eorZpX v => .read .eor (.memory (.zeroPageX v))
  | .eorAbsY v => .read .eor (.memory (.absoluteY v))
  | .eorAbsX v => .read .eor (.memory (.absoluteX v))
  | .cmpIndX v => .read .cmp (.memory (.indexedIndirectX v))
  | .cmpZp v => .read .cmp (.memory (.zeroPage v))
  | .cmpImm v => .read .cmp (.immediate v)
  | .cmpAbs v => .read .cmp (.memory (.absolute v))
  | .cmpIndY v => .read .cmp (.memory (.indirectIndexedY v))
  | .cmpZpX v => .read .cmp (.memory (.zeroPageX v))
  | .cmpAbsY v => .read .cmp (.memory (.absoluteY v))
  | .cmpAbsX v => .read .cmp (.memory (.absoluteX v))
  | .cpxImm v => .read .cpx (.immediate v)
  | .cpxZp v => .read .cpx (.memory (.zeroPage v))
  | .cpxAbs v => .read .cpx (.memory (.absolute v))
  | .cpyImm v => .read .cpy (.immediate v)
  | .cpyZp v => .read .cpy (.memory (.zeroPage v))
  | .cpyAbs v => .read .cpy (.memory (.absolute v))
  | .bitZp v => .read .bit (.memory (.zeroPage v))
  | .bitAbs v => .read .bit (.memory (.absolute v))
  | .ldaIndX v => .read .lda (.memory (.indexedIndirectX v))
  | .ldaZp v => .read .lda (.memory (.zeroPage v))
  | .ldaImm v => .read .lda (.immediate v)
  | .ldaAbs v => .read .lda (.memory (.absolute v))
  | .ldaIndY v => .read .lda (.memory (.indirectIndexedY v))
  | .ldaZpX v => .read .lda (.memory (.zeroPageX v))
  | .ldaAbsY v => .read .lda (.memory (.absoluteY v))
  | .ldaAbsX v => .read .lda (.memory (.absoluteX v))
  | .ldxImm v => .read .ldx (.immediate v)
  | .ldxZp v => .read .ldx (.memory (.zeroPage v))
  | .ldxAbs v => .read .ldx (.memory (.absolute v))
  | .ldxZpY v => .read .ldx (.memory (.zeroPageY v))
  | .ldxAbsY v => .read .ldx (.memory (.absoluteY v))
  | .ldyImm v => .read .ldy (.immediate v)
  | .ldyZp v => .read .ldy (.memory (.zeroPage v))
  | .ldyAbs v => .read .ldy (.memory (.absolute v))
  | .ldyZpX v => .read .ldy (.memory (.zeroPageX v))
  | .ldyAbsX v => .read .ldy (.memory (.absoluteX v))
  | .staIndX v => .store .sta (.indexedIndirectX v)
  | .staZp v => .store .sta (.zeroPage v)
  | .staAbs v => .store .sta (.absolute v)
  | .staIndY v => .store .sta (.indirectIndexedY v)
  | .staZpX v => .store .sta (.zeroPageX v)
  | .staAbsY v => .store .sta (.absoluteY v)
  | .staAbsX v => .store .sta (.absoluteX v)
  | .stxZp v => .store .stx (.zeroPage v)
  | .stxAbs v => .store .stx (.absolute v)
  | .stxZpY v => .store .stx (.zeroPageY v)
  | .styZp v => .store .sty (.zeroPage v)
  | .styAbs v => .store .sty (.absolute v)
  | .styZpX v => .store .sty (.zeroPageX v)
  | .aslZp v => .modify .asl (.memory (.zeroPage v))
  | .aslAcc => .modify .asl .accumulator
  | .aslAbs v => .modify .asl (.memory (.absolute v))
  | .aslZpX v => .modify .asl (.memory (.zeroPageX v))
  | .aslAbsX v => .modify .asl (.memory (.absoluteX v))
  | .lsrZp v => .modify .lsr (.memory (.zeroPage v))
  | .lsrAcc => .modify .lsr .accumulator
  | .lsrAbs v => .modify .lsr (.memory (.absolute v))
  | .lsrZpX v => .modify .lsr (.memory (.zeroPageX v))
  | .lsrAbsX v => .modify .lsr (.memory (.absoluteX v))
  | .rolZp v => .modify .rol (.memory (.zeroPage v))
  | .rolAcc => .modify .rol .accumulator
  | .rolAbs v => .modify .rol (.memory (.absolute v))
  | .rolZpX v => .modify .rol (.memory (.zeroPageX v))
  | .rolAbsX v => .modify .rol (.memory (.absoluteX v))
  | .rorZp v => .modify .ror (.memory (.zeroPage v))
  | .rorAcc => .modify .ror .accumulator
  | .rorAbs v => .modify .ror (.memory (.absolute v))
  | .rorZpX v => .modify .ror (.memory (.zeroPageX v))
  | .rorAbsX v => .modify .ror (.memory (.absoluteX v))
  | .incZp v => .modify .inc (.memory (.zeroPage v))
  | .incAbs v => .modify .inc (.memory (.absolute v))
  | .incZpX v => .modify .inc (.memory (.zeroPageX v))
  | .incAbsX v => .modify .inc (.memory (.absoluteX v))
  | .decZp v => .modify .dec (.memory (.zeroPage v))
  | .decAbs v => .modify .dec (.memory (.absolute v))
  | .decZpX v => .modify .dec (.memory (.zeroPageX v))
  | .decAbsX v => .modify .dec (.memory (.absoluteX v))
  | .bcc v => .branch .bcc v
  | .bcs v => .branch .bcs v
  | .beq v => .branch .beq v
  | .bne v => .branch .bne v
  | .bmi v => .branch .bmi v
  | .bpl v => .branch .bpl v
  | .bvc v => .branch .bvc v
  | .bvs v => .branch .bvs v
  | .jmpAbs v => .jump (.absolute v)
  | .jmpInd v => .jump (.indirect v)
  | .jsr v => .call v
  | .brk => .implied .brk
  | .php => .implied .php
  | .clc => .implied .clc
  | .plp => .implied .plp
  | .sec => .implied .sec
  | .rti => .implied .rti
  | .pha => .implied .pha
  | .cli => .implied .cli
  | .rts => .implied .rts
  | .pla => .implied .pla
  | .sei => .implied .sei
  | .dey => .implied .dey
  | .txa => .implied .txa
  | .tya => .implied .tya
  | .txs => .implied .txs
  | .tay => .implied .tay
  | .tax => .implied .tax
  | .clv => .implied .clv
  | .tsx => .implied .tsx
  | .iny => .implied .iny
  | .dex => .implied .dex
  | .cld => .implied .cld
  | .inx => .implied .inx
  | .nop => .implied .nop
  | .sed => .implied .sed

/-- The operation id of an instruction (R301). -/
def Instr.op (i : Instr) : Op := i.form.op

/-- The addressing-mode id of an instruction (R301). -/
def Instr.mode (i : Instr) : Mode := i.form.mode

/-- The opcode table has the instruction's form. -/
def Instr.wellFormed (i : Instr) : Bool := i.form.wellFormed

/-- What R300 gives an instruction: the opcode byte, the base cycle count, and whether the `*` (one extra cycle when
a page is crossed, R441) stands after it. -/
structure Row where
  opcode : Byte
  base : Nat
  pageCross : Bool
  deriving DecidableEq, Repr

/-- The rows of R300. -/
def Instr.row : Instr → Row
  | .adcIndX _ => ⟨0x61, 6, false⟩
  | .adcZp _ => ⟨0x65, 3, false⟩
  | .adcImm _ => ⟨0x69, 2, false⟩
  | .adcAbs _ => ⟨0x6D, 4, false⟩
  | .adcIndY _ => ⟨0x71, 5, true⟩
  | .adcZpX _ => ⟨0x75, 4, false⟩
  | .adcAbsY _ => ⟨0x79, 4, true⟩
  | .adcAbsX _ => ⟨0x7D, 4, true⟩
  | .sbcIndX _ => ⟨0xE1, 6, false⟩
  | .sbcZp _ => ⟨0xE5, 3, false⟩
  | .sbcImm _ => ⟨0xE9, 2, false⟩
  | .sbcAbs _ => ⟨0xED, 4, false⟩
  | .sbcIndY _ => ⟨0xF1, 5, true⟩
  | .sbcZpX _ => ⟨0xF5, 4, false⟩
  | .sbcAbsY _ => ⟨0xF9, 4, true⟩
  | .sbcAbsX _ => ⟨0xFD, 4, true⟩
  | .andIndX _ => ⟨0x21, 6, false⟩
  | .andZp _ => ⟨0x25, 3, false⟩
  | .andImm _ => ⟨0x29, 2, false⟩
  | .andAbs _ => ⟨0x2D, 4, false⟩
  | .andIndY _ => ⟨0x31, 5, true⟩
  | .andZpX _ => ⟨0x35, 4, false⟩
  | .andAbsY _ => ⟨0x39, 4, true⟩
  | .andAbsX _ => ⟨0x3D, 4, true⟩
  | .oraIndX _ => ⟨0x01, 6, false⟩
  | .oraZp _ => ⟨0x05, 3, false⟩
  | .oraImm _ => ⟨0x09, 2, false⟩
  | .oraAbs _ => ⟨0x0D, 4, false⟩
  | .oraIndY _ => ⟨0x11, 5, true⟩
  | .oraZpX _ => ⟨0x15, 4, false⟩
  | .oraAbsY _ => ⟨0x19, 4, true⟩
  | .oraAbsX _ => ⟨0x1D, 4, true⟩
  | .eorIndX _ => ⟨0x41, 6, false⟩
  | .eorZp _ => ⟨0x45, 3, false⟩
  | .eorImm _ => ⟨0x49, 2, false⟩
  | .eorAbs _ => ⟨0x4D, 4, false⟩
  | .eorIndY _ => ⟨0x51, 5, true⟩
  | .eorZpX _ => ⟨0x55, 4, false⟩
  | .eorAbsY _ => ⟨0x59, 4, true⟩
  | .eorAbsX _ => ⟨0x5D, 4, true⟩
  | .cmpIndX _ => ⟨0xC1, 6, false⟩
  | .cmpZp _ => ⟨0xC5, 3, false⟩
  | .cmpImm _ => ⟨0xC9, 2, false⟩
  | .cmpAbs _ => ⟨0xCD, 4, false⟩
  | .cmpIndY _ => ⟨0xD1, 5, true⟩
  | .cmpZpX _ => ⟨0xD5, 4, false⟩
  | .cmpAbsY _ => ⟨0xD9, 4, true⟩
  | .cmpAbsX _ => ⟨0xDD, 4, true⟩
  | .cpxImm _ => ⟨0xE0, 2, false⟩
  | .cpxZp _ => ⟨0xE4, 3, false⟩
  | .cpxAbs _ => ⟨0xEC, 4, false⟩
  | .cpyImm _ => ⟨0xC0, 2, false⟩
  | .cpyZp _ => ⟨0xC4, 3, false⟩
  | .cpyAbs _ => ⟨0xCC, 4, false⟩
  | .bitZp _ => ⟨0x24, 3, false⟩
  | .bitAbs _ => ⟨0x2C, 4, false⟩
  | .ldaIndX _ => ⟨0xA1, 6, false⟩
  | .ldaZp _ => ⟨0xA5, 3, false⟩
  | .ldaImm _ => ⟨0xA9, 2, false⟩
  | .ldaAbs _ => ⟨0xAD, 4, false⟩
  | .ldaIndY _ => ⟨0xB1, 5, true⟩
  | .ldaZpX _ => ⟨0xB5, 4, false⟩
  | .ldaAbsY _ => ⟨0xB9, 4, true⟩
  | .ldaAbsX _ => ⟨0xBD, 4, true⟩
  | .ldxImm _ => ⟨0xA2, 2, false⟩
  | .ldxZp _ => ⟨0xA6, 3, false⟩
  | .ldxAbs _ => ⟨0xAE, 4, false⟩
  | .ldxZpY _ => ⟨0xB6, 4, false⟩
  | .ldxAbsY _ => ⟨0xBE, 4, true⟩
  | .ldyImm _ => ⟨0xA0, 2, false⟩
  | .ldyZp _ => ⟨0xA4, 3, false⟩
  | .ldyAbs _ => ⟨0xAC, 4, false⟩
  | .ldyZpX _ => ⟨0xB4, 4, false⟩
  | .ldyAbsX _ => ⟨0xBC, 4, true⟩
  | .staIndX _ => ⟨0x81, 6, false⟩
  | .staZp _ => ⟨0x85, 3, false⟩
  | .staAbs _ => ⟨0x8D, 4, false⟩
  | .staIndY _ => ⟨0x91, 6, false⟩
  | .staZpX _ => ⟨0x95, 4, false⟩
  | .staAbsY _ => ⟨0x99, 5, false⟩
  | .staAbsX _ => ⟨0x9D, 5, false⟩
  | .stxZp _ => ⟨0x86, 3, false⟩
  | .stxAbs _ => ⟨0x8E, 4, false⟩
  | .stxZpY _ => ⟨0x96, 4, false⟩
  | .styZp _ => ⟨0x84, 3, false⟩
  | .styAbs _ => ⟨0x8C, 4, false⟩
  | .styZpX _ => ⟨0x94, 4, false⟩
  | .aslZp _ => ⟨0x06, 5, false⟩
  | .aslAcc => ⟨0x0A, 2, false⟩
  | .aslAbs _ => ⟨0x0E, 6, false⟩
  | .aslZpX _ => ⟨0x16, 6, false⟩
  | .aslAbsX _ => ⟨0x1E, 7, false⟩
  | .lsrZp _ => ⟨0x46, 5, false⟩
  | .lsrAcc => ⟨0x4A, 2, false⟩
  | .lsrAbs _ => ⟨0x4E, 6, false⟩
  | .lsrZpX _ => ⟨0x56, 6, false⟩
  | .lsrAbsX _ => ⟨0x5E, 7, false⟩
  | .rolZp _ => ⟨0x26, 5, false⟩
  | .rolAcc => ⟨0x2A, 2, false⟩
  | .rolAbs _ => ⟨0x2E, 6, false⟩
  | .rolZpX _ => ⟨0x36, 6, false⟩
  | .rolAbsX _ => ⟨0x3E, 7, false⟩
  | .rorZp _ => ⟨0x66, 5, false⟩
  | .rorAcc => ⟨0x6A, 2, false⟩
  | .rorAbs _ => ⟨0x6E, 6, false⟩
  | .rorZpX _ => ⟨0x76, 6, false⟩
  | .rorAbsX _ => ⟨0x7E, 7, false⟩
  | .incZp _ => ⟨0xE6, 5, false⟩
  | .incAbs _ => ⟨0xEE, 6, false⟩
  | .incZpX _ => ⟨0xF6, 6, false⟩
  | .incAbsX _ => ⟨0xFE, 7, false⟩
  | .decZp _ => ⟨0xC6, 5, false⟩
  | .decAbs _ => ⟨0xCE, 6, false⟩
  | .decZpX _ => ⟨0xD6, 6, false⟩
  | .decAbsX _ => ⟨0xDE, 7, false⟩
  | .bcc _ => ⟨0x90, 2, false⟩
  | .bcs _ => ⟨0xB0, 2, false⟩
  | .beq _ => ⟨0xF0, 2, false⟩
  | .bne _ => ⟨0xD0, 2, false⟩
  | .bmi _ => ⟨0x30, 2, false⟩
  | .bpl _ => ⟨0x10, 2, false⟩
  | .bvc _ => ⟨0x50, 2, false⟩
  | .bvs _ => ⟨0x70, 2, false⟩
  | .jmpAbs _ => ⟨0x4C, 3, false⟩
  | .jmpInd _ => ⟨0x6C, 5, false⟩
  | .jsr _ => ⟨0x20, 6, false⟩
  | .brk => ⟨0x00, 7, false⟩
  | .php => ⟨0x08, 3, false⟩
  | .clc => ⟨0x18, 2, false⟩
  | .plp => ⟨0x28, 4, false⟩
  | .sec => ⟨0x38, 2, false⟩
  | .rti => ⟨0x40, 6, false⟩
  | .pha => ⟨0x48, 3, false⟩
  | .cli => ⟨0x58, 2, false⟩
  | .rts => ⟨0x60, 6, false⟩
  | .pla => ⟨0x68, 4, false⟩
  | .sei => ⟨0x78, 2, false⟩
  | .dey => ⟨0x88, 2, false⟩
  | .txa => ⟨0x8A, 2, false⟩
  | .tya => ⟨0x98, 2, false⟩
  | .txs => ⟨0x9A, 2, false⟩
  | .tay => ⟨0xA8, 2, false⟩
  | .tax => ⟨0xAA, 2, false⟩
  | .clv => ⟨0xB8, 2, false⟩
  | .tsx => ⟨0xBA, 2, false⟩
  | .iny => ⟨0xC8, 2, false⟩
  | .dex => ⟨0xCA, 2, false⟩
  | .cld => ⟨0xD8, 2, false⟩
  | .inx => ⟨0xE8, 2, false⟩
  | .nop => ⟨0xEA, 2, false⟩
  | .sed => ⟨0xF8, 2, false⟩

/-- The number of operand bytes of each mode (R302). -/
def Mode.operandBytes : Mode → Nat
  | .implied => 0
  | .immediate => 1
  | .relative => 1
  | .zeroPage => 1
  | .zeroPageX => 1
  | .zeroPageY => 1
  | .indexedIndirectX => 1
  | .indirectIndexedY => 1
  | .absolute => 2
  | .absoluteX => 2
  | .absoluteY => 2
  | .indirect => 2

/-- The length of an instruction in bytes: the opcode byte and its operand bytes (R302). -/
def Instr.length (i : Instr) : Nat := 1 + i.mode.operandBytes

/-- A cell of the opcode map. A cell with an operation holds how its instruction is made from its operand bytes
(none, one, or the word `byte2:byte1`), the base cycles and the `*`. -/
inductive Cell where
  | invalid
  | implied (i : Instr) (base : Nat) (pageCross : Bool)
  | oneByte (make : Byte → Instr) (base : Nat) (pageCross : Bool)
  | twoBytes (make : Word → Instr) (base : Nat) (pageCross : Bool)

namespace Cell

/-- `—`: an invalid opcode (R307). -/
def no : Cell := .invalid
/-- A 1-byte instruction. -/
def i0 (i : Instr) (base : Nat) : Cell := .implied i base false
/-- A 2-byte instruction. -/
def i1 (make : Byte → Instr) (base : Nat) : Cell := .oneByte make base false
/-- A 2-byte instruction with `*`. -/
def i1x (make : Byte → Instr) (base : Nat) : Cell := .oneByte make base true
/-- A 3-byte instruction. -/
def i2 (make : Word → Instr) (base : Nat) : Cell := .twoBytes make base false
/-- A 3-byte instruction with `*`. -/
def i2x (make : Word → Instr) (base : Nat) : Cell := .twoBytes make base true

end Cell

/-- Row 0x of the opcode map (R305). -/
def opcodeRow0 : List Cell :=
  [.i0 .brk 7, .i1 .oraIndX 6, .no, .no,
   .no, .i1 .oraZp 3, .i1 .aslZp 5, .no,
   .i0 .php 3, .i1 .oraImm 2, .i0 .aslAcc 2, .no,
   .no, .i2 .oraAbs 4, .i2 .aslAbs 6, .no]

/-- Row 1x of the opcode map (R305). -/
def opcodeRow1 : List Cell :=
  [.i1 .bpl 2, .i1x .oraIndY 5, .no, .no,
   .no, .i1 .oraZpX 4, .i1 .aslZpX 6, .no,
   .i0 .clc 2, .i2x .oraAbsY 4, .no, .no,
   .no, .i2x .oraAbsX 4, .i2 .aslAbsX 7, .no]

/-- Row 2x of the opcode map (R305). -/
def opcodeRow2 : List Cell :=
  [.i2 .jsr 6, .i1 .andIndX 6, .no, .no,
   .i1 .bitZp 3, .i1 .andZp 3, .i1 .rolZp 5, .no,
   .i0 .plp 4, .i1 .andImm 2, .i0 .rolAcc 2, .no,
   .i2 .bitAbs 4, .i2 .andAbs 4, .i2 .rolAbs 6, .no]

/-- Row 3x of the opcode map (R305). -/
def opcodeRow3 : List Cell :=
  [.i1 .bmi 2, .i1x .andIndY 5, .no, .no,
   .no, .i1 .andZpX 4, .i1 .rolZpX 6, .no,
   .i0 .sec 2, .i2x .andAbsY 4, .no, .no,
   .no, .i2x .andAbsX 4, .i2 .rolAbsX 7, .no]

/-- Row 4x of the opcode map (R305). -/
def opcodeRow4 : List Cell :=
  [.i0 .rti 6, .i1 .eorIndX 6, .no, .no,
   .no, .i1 .eorZp 3, .i1 .lsrZp 5, .no,
   .i0 .pha 3, .i1 .eorImm 2, .i0 .lsrAcc 2, .no,
   .i2 .jmpAbs 3, .i2 .eorAbs 4, .i2 .lsrAbs 6, .no]

/-- Row 5x of the opcode map (R305). -/
def opcodeRow5 : List Cell :=
  [.i1 .bvc 2, .i1x .eorIndY 5, .no, .no,
   .no, .i1 .eorZpX 4, .i1 .lsrZpX 6, .no,
   .i0 .cli 2, .i2x .eorAbsY 4, .no, .no,
   .no, .i2x .eorAbsX 4, .i2 .lsrAbsX 7, .no]

/-- Row 6x of the opcode map (R305). -/
def opcodeRow6 : List Cell :=
  [.i0 .rts 6, .i1 .adcIndX 6, .no, .no,
   .no, .i1 .adcZp 3, .i1 .rorZp 5, .no,
   .i0 .pla 4, .i1 .adcImm 2, .i0 .rorAcc 2, .no,
   .i2 .jmpInd 5, .i2 .adcAbs 4, .i2 .rorAbs 6, .no]

/-- Row 7x of the opcode map (R305). -/
def opcodeRow7 : List Cell :=
  [.i1 .bvs 2, .i1x .adcIndY 5, .no, .no,
   .no, .i1 .adcZpX 4, .i1 .rorZpX 6, .no,
   .i0 .sei 2, .i2x .adcAbsY 4, .no, .no,
   .no, .i2x .adcAbsX 4, .i2 .rorAbsX 7, .no]

/-- Row 8x of the opcode map (R305). -/
def opcodeRow8 : List Cell :=
  [.no, .i1 .staIndX 6, .no, .no,
   .i1 .styZp 3, .i1 .staZp 3, .i1 .stxZp 3, .no,
   .i0 .dey 2, .no, .i0 .txa 2, .no,
   .i2 .styAbs 4, .i2 .staAbs 4, .i2 .stxAbs 4, .no]

/-- Row 9x of the opcode map (R305). -/
def opcodeRow9 : List Cell :=
  [.i1 .bcc 2, .i1 .staIndY 6, .no, .no,
   .i1 .styZpX 4, .i1 .staZpX 4, .i1 .stxZpY 4, .no,
   .i0 .tya 2, .i2 .staAbsY 5, .i0 .txs 2, .no,
   .no, .i2 .staAbsX 5, .no, .no]

/-- Row Ax of the opcode map (R305). -/
def opcodeRowA : List Cell :=
  [.i1 .ldyImm 2, .i1 .ldaIndX 6, .i1 .ldxImm 2, .no,
   .i1 .ldyZp 3, .i1 .ldaZp 3, .i1 .ldxZp 3, .no,
   .i0 .tay 2, .i1 .ldaImm 2, .i0 .tax 2, .no,
   .i2 .ldyAbs 4, .i2 .ldaAbs 4, .i2 .ldxAbs 4, .no]

/-- Row Bx of the opcode map (R305). -/
def opcodeRowB : List Cell :=
  [.i1 .bcs 2, .i1x .ldaIndY 5, .no, .no,
   .i1 .ldyZpX 4, .i1 .ldaZpX 4, .i1 .ldxZpY 4, .no,
   .i0 .clv 2, .i2x .ldaAbsY 4, .i0 .tsx 2, .no,
   .i2x .ldyAbsX 4, .i2x .ldaAbsX 4, .i2x .ldxAbsY 4, .no]

/-- Row Cx of the opcode map (R305). -/
def opcodeRowC : List Cell :=
  [.i1 .cpyImm 2, .i1 .cmpIndX 6, .no, .no,
   .i1 .cpyZp 3, .i1 .cmpZp 3, .i1 .decZp 5, .no,
   .i0 .iny 2, .i1 .cmpImm 2, .i0 .dex 2, .no,
   .i2 .cpyAbs 4, .i2 .cmpAbs 4, .i2 .decAbs 6, .no]

/-- Row Dx of the opcode map (R305). -/
def opcodeRowD : List Cell :=
  [.i1 .bne 2, .i1x .cmpIndY 5, .no, .no,
   .no, .i1 .cmpZpX 4, .i1 .decZpX 6, .no,
   .i0 .cld 2, .i2x .cmpAbsY 4, .no, .no,
   .no, .i2x .cmpAbsX 4, .i2 .decAbsX 7, .no]

/-- Row Ex of the opcode map (R305). -/
def opcodeRowE : List Cell :=
  [.i1 .cpxImm 2, .i1 .sbcIndX 6, .no, .no,
   .i1 .cpxZp 3, .i1 .sbcZp 3, .i1 .incZp 5, .no,
   .i0 .inx 2, .i1 .sbcImm 2, .i0 .nop 2, .no,
   .i2 .cpxAbs 4, .i2 .sbcAbs 4, .i2 .incAbs 6, .no]

/-- Row Fx of the opcode map (R305). -/
def opcodeRowF : List Cell :=
  [.i1 .beq 2, .i1x .sbcIndY 5, .no, .no,
   .no, .i1 .sbcZpX 4, .i1 .incZpX 6, .no,
   .i0 .sed 2, .i2x .sbcAbsY 4, .no, .no,
   .no, .i2x .sbcAbsX 4, .i2 .incAbsX 7, .no]

/-- The 16 x 16 opcode map: the high nibble of the opcode selects the row, the low nibble the column (R305). -/
def opcodeMap : List (List Cell) :=
  [opcodeRow0, opcodeRow1, opcodeRow2, opcodeRow3, opcodeRow4, opcodeRow5, opcodeRow6, opcodeRow7,
   opcodeRow8, opcodeRow9, opcodeRowA, opcodeRowB, opcodeRowC, opcodeRowD, opcodeRowE, opcodeRowF]

/-- The map's cell for an opcode byte, by direct indexing (R301). -/
def cellAt (opcode : Byte) : Cell :=
  (((opcodeMap[opcode.toNat / 16]?).getD [])[opcode.toNat % 16]?).getD .invalid

/-- An instruction descriptor (R301). -/
structure Descriptor where
  op : Op
  mode : Mode
  base : Nat
  condExtra : Bool
  deriving DecidableEq, Repr

/-- The descriptor a cell stands for. -/
def Cell.descriptor : Cell → Option Descriptor
  | .invalid => none
  | .implied i base star => some ⟨i.op, i.mode, base, star⟩
  | .oneByte make base star => some ⟨(make 0).op, (make 0).mode, base, star⟩
  | .twoBytes make base star => some ⟨(make 0).op, (make 0).mode, base, star⟩

/-- The dispatch table: a descriptor, or `none` where the entry is `Invalid` (R301). -/
def descr (opcode : Byte) : Option Descriptor := (cellAt opcode).descriptor

/-- What the decoder reads from some bytes. -/
inductive Decoded where
  /-- An instruction, and the bytes after it. -/
  | instr (i : Instr) (rest : List Byte)
  /-- The first byte is one of the 105 invalid opcodes (R307). -/
  | invalid (opcode : Byte)
  /-- The bytes end before the instruction does (log 9). -/
  | truncated
  deriving DecidableEq, Repr

/-- The decoder, total on any bytes: the first byte alone fixes the length and the row (R302, R303); the low byte of
an address comes first (R304). -/
def decode : List Byte → Decoded
  | [] => .truncated
  | opcode :: bytes =>
    match cellAt opcode, bytes with
    | .invalid, _ => .invalid opcode
    | .implied i _ _, rest => .instr i rest
    | .oneByte make _ _, b :: rest => .instr (make b) rest
    | .oneByte _ _ _, [] => .truncated
    | .twoBytes make _ _, lo :: hi :: rest => .instr (make (Machine.wordOf hi lo)) rest
    | .twoBytes _ _ _, _ => .truncated

/-- The operand bytes of an operand that resolves to an address, the low byte first (R303). -/
def MemOperand.bytes : MemOperand → List Byte
  | .zeroPage z => [z]
  | .zeroPageX z => [z]
  | .zeroPageY z => [z]
  | .absolute a => [Machine.lowByte a, Machine.highByte a]
  | .absoluteX a => [Machine.lowByte a, Machine.highByte a]
  | .absoluteY a => [Machine.lowByte a, Machine.highByte a]
  | .indirect a => [Machine.lowByte a, Machine.highByte a]
  | .indexedIndirectX z => [z]
  | .indirectIndexedY z => [z]

/-- The operand bytes of a form (R303). -/
def Form.bytes : Form → List Byte
  | .read _ (.immediate b) => [b]
  | .read _ (.memory m) => m.bytes
  | .store _ m => m.bytes
  | .modify _ .accumulator => []
  | .modify _ (.memory m) => m.bytes
  | .branch _ rel => [rel]
  | .jump m => m.bytes
  | .call a => [Machine.lowByte a, Machine.highByte a]
  | .implied _ => []

/-- The encoder: the opcode byte of the instruction's row in R300, then the operand bytes (R303). -/
def encode (i : Instr) : List Byte := i.row.opcode :: i.form.bytes

/-- Byte `k` of an instruction whose bits are `w` as the opcode table numbers them, every bit from `nbits` on being 0. -/
def tableByte (nbits w k : Nat) : Byte := BitVec.ofNat 8 (w % 2 ^ nbits / 2 ^ (8 * k))

/-- The instruction the decoder reads from an instruction whose bits are `w`, numbered as the opcode table numbers
them: the first byte is bits 7..0, the second 15..8, the third 23..16. -/
def decodeTableWord (nbits w : Nat) : Option Instr :=
  match decode [tableByte nbits w 0, tableByte nbits w 1, tableByte nbits w 2] with
  | .instr i _ => some i
  | .invalid _ => none
  | .truncated => none

end Sys2Proof
end

