-- ==== Sys2Proof/Config.lean ====
section
/-! DEFINITION. The implementation parameters of 00_scope.md R7 that are fixed, and the model's one choice about
memory. No parameter of this machine is a free value: the spec leaves no result open. -/

namespace Sys2Proof.Config

/-- The base of the stack page, 0x0100 (R7 STACK_PAGE, R102). -/
def stackBase : Word := 0x0100

/-- The low byte's address of the NMI vector (R7 NMI_VECTOR). -/
def nmiVector : Word := 0xFFFA

/-- The low byte's address of the reset vector (R7 RESET_VECTOR). -/
def resetVector : Word := 0xFFFC

/-- The low byte's address of the vector that IRQ and BRK share (R7 IRQ_BRK_VECTOR). -/
def irqVector : Word := 0xFFFE

/-- SP after reset (R7 SP_RESET). -/
def spReset : Byte := 0xFD

/-- P after reset, packed: I and U set (R7 P_RESET). -/
def pReset : Byte := 0x24

/-- The cycles an interrupt step charges (R7 INTERRUPT_CYCLES). -/
def interruptCycles : Nat := 7

/-- What a byte of memory that the list of cells does not name reads as.
DESIGN CHOICE (log 1), unsafe where a claim leans on it: the spec makes memory at power-on the parameter MEM_INIT
(R7, D9); any MEM_INIT is the list of cells that `Cpu.create` is given. -/
def unlistedByte : Byte := 0x00

end Sys2Proof.Config
end

