-- ==== Sys2Proof/Machine/Memory.lean ====
section
/-! DEFINITION. The default memory, plain 64 KiB RAM (20_memory.md R200, R202), as a list of cells in one canonical
form: addresses strictly rising, below 65536, and no cell that holds what an unlisted address reads as. -/

namespace Sys2Proof.Machine

/-- RAM contents: the listed cells; every other address of the 65,536 reads as `Config.unlistedByte` (log 1). -/
abbrev Memory := List Host.Cell

/-- The byte at address `a`. -/
def Memory.look : Memory → Nat → Byte
  | [], _ => Config.unlistedByte
  | (k, v) :: rest, a => if k = a then v else Memory.look rest a

/-- The cells but those at address `a`. -/
def Memory.erase : Memory → Nat → Memory
  | [], _ => []
  | (k, v) :: rest, a => if k = a then Memory.erase rest a else (k, v) :: Memory.erase rest a

/-- The cells with a cell (a, v) put in its place by address. -/
def Memory.insert : Memory → Nat → Byte → Memory
  | [], a, v => [(a, v)]
  | (k, w) :: rest, a, v =>
    if a < k then (a, v) :: (k, w) :: rest
    else if a = k then (a, v) :: rest
    else (k, w) :: Memory.insert rest a v

/-- `readByte` of plain RAM: the byte stored (R200). -/
def Memory.read (m : Memory) (a : Word) : Byte := Memory.look m a.toNat

/-- `writeByte` of plain RAM: it replaces the byte (R200), keeping the canonical form. -/
def Memory.write (m : Memory) (a : Word) (v : Byte) : Memory :=
  if v = Config.unlistedByte then Memory.erase m a.toNat else Memory.insert m a.toNat v

/-- A little-endian word of RAM (R203). -/
def Memory.readWord (m : Memory) (a : Word) : Word := wordOf (Memory.read m (a + 1)) (Memory.read m a)

/-- Canonical from address `lo` on. -/
def Memory.wfFrom : Nat → Memory → Bool
  | _, [] => true
  | lo, (k, v) :: rest =>
    decide (lo ≤ k) && decide (k < 65536) && decide (v ≠ Config.unlistedByte) && Memory.wfFrom (k + 1) rest

/-- The canonical form: addresses strictly rising and in range (R202), no cell holding the unlisted byte. -/
def Memory.wf (m : Memory) : Bool := Memory.wfFrom 0 m

end Sys2Proof.Machine
end

