-- ==== Sys2Proof/Machine/State.lean ====
section
/-! DEFINITION. The whole state of one instance (10_state.md R100, R110, R121-R124), the reasons a step can stop, and
the state after reset (R126). -/

namespace Sys2Proof.Machine

/-- The status register P: eight stored single-bit flags (R110, R111). No bit is hardwired. -/
structure Flags where
  /-- Carry, bit 0. -/
  c : Bool
  /-- Zero, bit 1. -/
  z : Bool
  /-- Interrupt-Disable, bit 2: masks IRQ (R120). -/
  i : Bool
  /-- Decimal, bit 3: stored, never read by arithmetic (R113). -/
  d : Bool
  /-- Break, bit 4: a stored bit (R111). -/
  b : Bool
  /-- Unused, bit 5: a stored bit (R111). -/
  u : Bool
  /-- Overflow, bit 6. -/
  v : Bool
  /-- Negative, bit 7. -/
  n : Bool
  deriving DecidableEq, Repr

/-- One instance bound to a Memory Interface whose own state is of type `σ` (R124, R200). -/
structure Cpu (σ : Type) where
  /-- The accumulator (R100, R101). -/
  a : Byte
  /-- Index register X (R100, R101). -/
  x : Byte
  /-- Index register Y (R100, R101). -/
  y : Byte
  /-- The stack pointer, an offset into page 0x01 (R100, R102). -/
  sp : Byte
  /-- The program counter (R100, R103). -/
  pc : Word
  /-- The status register (R100, R110). -/
  p : Flags
  /-- The cycle accountant's running total (R121). -/
  cycles : Nat
  /-- The NMI latch (R122). -/
  nmiPending : Bool
  /-- The level of the IRQ line, which only the host drives (R122). -/
  irqLine : Bool
  /-- The fault latch: the offending opcode and the address it was fetched from (R123). -/
  fault : Option (Byte × Word)
  /-- The state of the Memory Interface instance (R124, R200). -/
  mem : σ
  deriving DecidableEq, Repr

/-- The machine: an instance bound to plain RAM, the spec's default Memory Interface (R200, log 2). -/
structure State extends Cpu Memory where
  deriving DecidableEq, Repr

/-- The reasons the machine stops. -/
inductive Fault where
  /-- Raised by `step` in a state whose fault latch holds (opcode, pc): the core reports the same fault again and
  changes nothing (R1101). Safe: the machine halts where the spec says it is halted. -/
  | illegalOpcode (opcode : Byte) (pc : Word)
  deriving DecidableEq, Repr

/-- The reasons the model gives an instruction no meaning. -/
inductive Refusal where
  /-- Raised by an arm of `exec` whose instruction has no meaning yet (none has this now). Safe: nothing follows. -/
  | notModelled (mnemonic : String)
  deriving DecidableEq, Repr

/-- What a meaning answers. -/
abbrev Result := Host.Outcome State Fault Refusal

/-- The machine right after power-on and reset, memory with nothing listed (R126, R1200, R1201): A = X = Y = 0,
SP = 0xFD, P = 0x24, and PC the word at the reset vector. -/
def State.reset : State where
  a := 0
  x := 0
  y := 0
  sp := Config.spReset
  pc := Memory.readWord [] Config.resetVector
  p := { c := false, z := false, i := true, d := false, b := false, u := true, v := false, n := false }
  cycles := 0
  nmiPending := false
  irqLine := false
  fault := none
  mem := []

end Sys2Proof.Machine
end

