-- ==== Sys2Proof/Machine/Bus.lean ====
section
/-! DEFINITION. The Memory Interface (20_memory.md R200, R201): the parameter BUS, its default instance, and a BUS that
records the accesses made through it. -/

namespace Sys2Proof.Machine

/-- A Memory Interface with state `σ` (R200). The state is threaded through reads too, so a read may have side effects.
Both calls always succeed (R201). -/
structure Bus (σ : Type) where
  readByte : σ → Word → Byte × σ
  writeByte : σ → Word → Byte → σ

/-- The default instance, plain RAM (R200). -/
def Bus.ram : Bus Memory where
  readByte m a := (Memory.read m a, m)
  writeByte m a v := Memory.write m a v

/-- One access at the interface, with the byte it moved (R208). -/
inductive Access where
  | read (addr : Word) (v : Byte)
  | write (addr : Word) (v : Byte)
  deriving DecidableEq, Repr

/-- `B` with a record of every access, the oldest first: what R209 fixes of a step. -/
def Bus.recording {σ : Type} (B : Bus σ) : Bus (σ × List Access) where
  readByte m a := ((B.readByte m.1 a).1, (B.readByte m.1 a).2, m.2 ++ [.read a (B.readByte m.1 a).1])
  writeByte m a v := (B.writeByte m.1 a v, m.2 ++ [.write a v])

end Sys2Proof.Machine
end

