-- ==== Sys2Proof/Machine/Flags.lean ====
section
/-! DEFINITION. The status byte and every flag computation (10_state.md R110-R114, files 41 to 43). -/

namespace Sys2Proof.Machine

/-- `pack(P) = C | Z<<1 | I<<2 | D<<3 | B<<4 | U<<5 | V<<6 | N<<7` (R110). -/
def Flags.pack (p : Flags) : Byte :=
  flagByte p.c ||| flagByte p.z <<< 1 ||| flagByte p.i <<< 2 ||| flagByte p.d <<< 3 |||
  flagByte p.b <<< 4 ||| flagByte p.u <<< 5 ||| flagByte p.v <<< 6 ||| flagByte p.n <<< 7

/-- `unpack(b)`: each flag from its bit of `b` (R110). -/
def Flags.unpack (b : Byte) : Flags where
  c := bit b 0
  z := bit b 1
  i := bit b 2
  d := bit b 3
  b := bit b 4
  u := bit b 5
  v := bit b 6
  n := bit b 7

/-- The status byte that PHP and BRK push: B and U forced to 1 (R112, R811, R903). -/
def Flags.pushedByInstruction (p : Flags) : Byte := p.pack ||| 0x30

/-- The status byte that IRQ and NMI entry push: B = 0 and U = 1 (R112, R1111). -/
def Flags.pushedByInterrupt (p : Flags) : Byte := (p.pack &&& 0xEF) ||| 0x20

/-- `SetZN(v)` (R114). -/
def Flags.setZN (v : Byte) (p : Flags) : Flags := { p with z := v == 0, n := bit v 7 }

/-- The unbounded sum of `AddCore` (R500). -/
def addSum (a m : Byte) (carry : Bool) : Nat := a.toNat + m.toNat + carry.toNat

/-- The truncated sum `r` of `AddCore` (R500). -/
def addResult (a m : Byte) (carry : Bool) : Byte := BitVec.ofNat 8 (addSum a m carry)

/-- The flags `AddCore` writes, from the accumulator before the addition (R500). -/
def Flags.afterAdd (a m : Byte) (p : Flags) : Flags :=
  let r := addResult a m p.c
  { p with c := decide (addSum a m p.c > 255), v := ((a ^^^ r) &&& (m ^^^ r) &&& 0x80) != 0 }.setZN r

/-- The flags `Compare(reg, m)` writes (R503). -/
def Flags.afterCompare (reg m : Byte) (p : Flags) : Flags :=
  { p with c := decide (reg.toNat ≥ m.toNat), z := reg == m, n := bit (reg - m) 7 }

/-- The flags BIT writes (R710). -/
def Flags.afterBit (a m : Byte) (p : Flags) : Flags :=
  { p with z := (a &&& m) == 0, n := bit m 7, v := bit m 6 }

/-- A byte function of a read-modify-write executor, which also writes flags (R432). -/
abbrev ByteFunction := Byte → Flags → Byte × Flags

/-- A byte function whose result is `r` and which sets C to `carry`, and Z and N from `r`. -/
def shifted (r : Byte) (carry : Bool) (p : Flags) : Byte × Flags := (r, { p with c := carry }.setZN r)

/-- ASL's byte function (R600). -/
def aslByte : ByteFunction := fun v p => shifted (v <<< 1) (bit v 7) p

/-- LSR's byte function (R601). -/
def lsrByte : ByteFunction := fun v p => shifted (v >>> 1) (bit v 0) p

/-- ROL's byte function: the carry goes in at bit 0 (R602). -/
def rolByte : ByteFunction := fun v p => shifted ((v <<< 1) ||| flagByte p.c) (bit v 7) p

/-- ROR's byte function: the carry goes in at bit 7 (R603). -/
def rorByte : ByteFunction := fun v p => shifted ((v >>> 1) ||| (flagByte p.c <<< 7)) (bit v 0) p

/-- INC's byte function (R604). -/
def incByte : ByteFunction := fun v p => (v + 1, p.setZN (v + 1))

/-- DEC's byte function (R605). -/
def decByte : ByteFunction := fun v p => (v - 1, p.setZN (v - 1))

end Sys2Proof.Machine
end

