-- ==== Sys2Proof/Machine/Ops.lean ====
section
/-! DEFINITION. The named operations over memory, stack and registers, for any BUS: memory words and pointers and the
stack (20_memory.md), fetching (R400, R404), entering a handler and returning from one (R903, R904, R1111), the illegal
opcode trap (R1101), reset and power-on (R1200, R1201), and the host's two interrupt inputs (R122). -/

namespace Sys2Proof.Machine

variable {σ : Type}

/-- `MemRead(addr, 1)`: one call of `readByte` (R201). -/
def Cpu.read (B : Bus σ) (c : Cpu σ) (addr : Word) : Byte × Cpu σ :=
  ((B.readByte c.mem addr).1, { c with mem := (B.readByte c.mem addr).2 })

/-- `MemWrite(addr, 1, v)`: one call of `writeByte` (R201). -/
def Cpu.write (B : Bus σ) (c : Cpu σ) (addr : Word) (v : Byte) : Cpu σ :=
  { c with mem := B.writeByte c.mem addr v }

/-- `MemRead(addr, 2)`: the low byte, then the high byte at the next address (R203). -/
def Cpu.readWord (B : Bus σ) (c : Cpu σ) (addr : Word) : Word × Cpu σ :=
  let lo := c.read B addr
  let hi := lo.2.read B (addr + 1)
  (wordOf hi.1 lo.1, hi.2)

/-- The source's `writeWord`: the low byte at the address, the high byte at the next one. No rule of the core uses it
(R204). DESIGN CHOICE (log 13): the low byte is written first; R204 gives only where each byte lies. -/
def Cpu.writeWord (B : Bus σ) (c : Cpu σ) (addr : Word) (w : Word) : Cpu σ :=
  (c.write B addr (lowByte w)).write B (addr + 1) (highByte w)

/-- `ZpRead16(z)`: both bytes of the pointer are read in page zero (R205). -/
def Cpu.zpRead16 (B : Bus σ) (c : Cpu σ) (z : Byte) : Word × Cpu σ :=
  let lo := c.read B (zext16 z)
  let hi := lo.2.read B (zext16 (z + 1))
  (wordOf hi.1 lo.1, hi.2)

/-- The address in the stack page that an offset designates (R102). -/
def stackAddr (sp : Byte) : Word := Config.stackBase + zext16 sp

/-- `Push(v)`: write, then decrement (R220). -/
def Cpu.push (B : Bus σ) (c : Cpu σ) (v : Byte) : Cpu σ :=
  { c.write B (stackAddr c.sp) v with sp := c.sp - 1 }

/-- `Pop()`: increment, then read (R221). -/
def Cpu.pop (B : Bus σ) (c : Cpu σ) : Byte × Cpu σ :=
  Cpu.read B { c with sp := c.sp + 1 } (stackAddr (c.sp + 1))

/-- `PushWord(w)`: high byte first (R222). -/
def Cpu.pushWord (B : Bus σ) (c : Cpu σ) (w : Word) : Cpu σ :=
  (c.push B (highByte w)).push B (lowByte w)

/-- `PopWord()`: low byte first (R223). -/
def Cpu.popWord (B : Bus σ) (c : Cpu σ) : Word × Cpu σ :=
  let lo := c.pop B
  let hi := lo.2.pop B
  (wordOf hi.1 lo.1, hi.2)

/-- PC moved on by `n` bytes, wrapping at 0xFFFF (R103, R404). -/
def Cpu.advance (c : Cpu σ) (n : Nat) : Cpu σ := { c with pc := c.pc + BitVec.ofNat 16 n }

/-- `cycles <- cycles + n` (R440). -/
def Cpu.charge (c : Cpu σ) (n : Nat) : Cpu σ := { c with cycles := c.cycles + n }

/-- What BRK, IRQ and NMI share: push the return address, then the status byte; PC from the vector; I set. D, B and U
keep their values (R903, R1111; log 8). -/
def Cpu.enterHandler (B : Bus σ) (c : Cpu σ) (returnTo : Word) (status : Byte) (vector : Word) : Cpu σ :=
  let v := ((c.pushWord B returnTo).push B status).readWord B vector
  { v.2 with pc := v.1, p := { c.p with i := true } }

/-- The return from a handler: the status verbatim, then the return address with no +1 (R904, R1114). -/
def Cpu.returnFromHandler (B : Bus σ) (c : Cpu σ) : Cpu σ :=
  let s := c.pop B
  let w := s.2.popWord B
  { w.2 with pc := w.1, p := Flags.unpack s.1 }

/-- The asynchronous interrupt sources (R1103). -/
inductive Interrupt where
  | nmi | irq
  deriving DecidableEq, Repr

/-- `InterruptPending()`: NMI first, then IRQ if it is not masked (R1110). -/
def Cpu.interruptPending (c : Cpu σ) : Option Interrupt :=
  if c.nmiPending then some .nmi
  else if c.irqLine && !c.p.i then some .irq
  else none

/-- The vector of an interrupt source (R1103). -/
def Interrupt.vector : Interrupt → Word
  | .nmi => Config.nmiVector
  | .irq => Config.irqVector

/-- Taking an interrupt acknowledges an NMI, and leaves the IRQ line to the host (R1111). -/
def Cpu.acknowledge (c : Cpu σ) : Interrupt → Cpu σ
  | .nmi => { c with nmiPending := false }
  | .irq => c

/-- `InterruptEntry(src)`, without its cycles (R1111). -/
def Cpu.interruptEntry (B : Bus σ) (c : Cpu σ) (src : Interrupt) : Cpu σ :=
  (c.acknowledge src).enterHandler B c.pc c.p.pushedByInterrupt src.vector

/-- A whole interrupt step: the entry, and the 7 cycles it charges (R400, R1111). -/
def Cpu.takeInterrupt (B : Bus σ) (c : Cpu σ) (src : Interrupt) : Cpu σ :=
  (c.interruptEntry B src).charge Config.interruptCycles

/-- `raise IllegalOpcode(opcode, pc)`: the fault is latched, and nothing else changes (R1101). -/
def Cpu.raiseIllegalOpcode (c : Cpu σ) (opcode : Byte) : Cpu σ := { c with fault := some (opcode, c.pc) }

/-- What fetching at PC gives: an instruction, or an invalid opcode. PC still names the opcode; the instruction moves
it on (log 4). -/
inductive Fetched (σ : Type) where
  | instr (i : Instr) (c : Cpu σ)
  | invalid (opcode : Byte) (c : Cpu σ)

/-- The opcode fetch, the table lookup, and the fetches of the operand bytes, the low byte first (R303, R400, R404).
After an invalid opcode nothing more is read (R1101). DESIGN CHOICE (log 4): PC stays at the opcode. -/
def Cpu.fetch (B : Bus σ) (c : Cpu σ) : Fetched σ :=
  let r := c.read B c.pc
  match cellAt r.1 with
  | .invalid => .invalid r.1 r.2
  | .implied i _ _ => .instr i r.2
  | .oneByte make _ _ =>
    let r1 := r.2.read B (c.pc + 1)
    .instr (make r1.1) r1.2
  | .twoBytes make _ _ =>
    let r1 := r.2.read B (c.pc + 1)
    let r2 := r1.2.read B (c.pc + 2)
    .instr (make (wordOf r2.1 r1.1)) r2.2

/-- `reset()`: registers from constants and the reset vector; `cycles`, `irq_line` and memory are kept (R1200). -/
def Cpu.hostReset (B : Bus σ) (c : Cpu σ) : Cpu σ :=
  let v := c.readWord B Config.resetVector
  { v.2 with
    a := 0, x := 0, y := 0, sp := Config.spReset, p := Flags.unpack Config.pReset,
    nmiPending := false, fault := none, pc := v.1 }

/-- `create(BUS, MEM_INIT)`: bind the interface, zero the cycle total, lower the IRQ line, then reset (R1201). The fields
that reset writes have no value before it. -/
def Cpu.create (B : Bus σ) (memInit : σ) : Cpu σ :=
  Cpu.hostReset B
    { a := 0, x := 0, y := 0, sp := Config.spReset, pc := 0, p := Flags.unpack Config.pReset, cycles := 0,
      nmiPending := false, irqLine := false, fault := none, mem := memInit }

/-- `signalNMI()` (R122, R405). -/
def Cpu.signalNMI (c : Cpu σ) : Cpu σ := { c with nmiPending := true }

/-- `setIRQ(level)` (R122, R405). -/
def Cpu.setIRQ (c : Cpu σ) (level : Bool) : Cpu σ := { c with irqLine := level }

end Sys2Proof.Machine
end

