-- ==== Sys2Proof/Machine/Operands.lean ====
section
/-! DEFINITION. The addressing modes (R410-R422), the access to operands by the classes of executors (R430-R433), and
the cycles an instruction charges (R440, R441). -/

namespace Sys2Proof.Machine

variable {σ : Type}

/-- What `Resolve` gives for an operand in memory: the effective address of `Address(ea)`, whether the mode crossed a
page, and the state after the mode's pointer reads (R410). The other operands resolve to themselves, and the types
`ReadOperand` and `ModifyOperand` say which an executor can meet (R430, R432). -/
structure Located (σ : Type) where
  ea : Word
  cross : Bool
  cpu : Cpu σ

/-- `base` indexed by `index`: the sum wraps at 0xFFFF, and `cross` says that its page is not the base's (R418). -/
def Located.indexed (base : Word) (index : Byte) (c : Cpu σ) : Located σ :=
  ⟨base + zext16 index, pagesDiffer base (base + zext16 index), c⟩

/-- `Resolve` of the nine modes that give an address (R414-R422). It reads pointers, and never the operand itself.
DESIGN CHOICE (log 4): the operand bytes are already fetched, so it fetches nothing and leaves PC alone. -/
def locate (B : Bus σ) (c : Cpu σ) : MemOperand → Located σ
  | .zeroPage z => ⟨zext16 z, false, c⟩
  | .zeroPageX z => ⟨zext16 (z + c.x), false, c⟩
  | .zeroPageY z => ⟨zext16 (z + c.y), false, c⟩
  | .absolute a => ⟨a, false, c⟩
  | .absoluteX a => Located.indexed a c.x c
  | .absoluteY a => Located.indexed a c.y c
  | .indirect ptr =>
    let lo := c.read B ptr
    let hi := lo.2.read B ((ptr &&& 0xFF00) ||| zext16 (lowByte ptr + 1))
    ⟨wordOf hi.1 lo.1, false, hi.2⟩
  | .indexedIndirectX z =>
    let p := c.zpRead16 B (z + c.x)
    ⟨p.1, false, p.2⟩
  | .indirectIndexedY z =>
    let p := c.zpRead16 B z
    Located.indexed p.1 c.y p.2

/-- What running an instruction gives before its cycles are charged: the state, and the count (R400, R440). -/
structure Ran (σ : Type) where
  cpu : Cpu σ
  cost : Nat

/-- The charge that ends a step (R400). -/
def Ran.charged (r : Ran σ) : Cpu σ := r.cpu.charge r.cost

/-- `n = d.base + penalty + branch_extra` (R440), the penalty being 1 exactly when the row has the `*` and the mode
crossed a page (R441). -/
def cost (i : Instr) (cross : Bool) (branchExtra : Nat) : Nat :=
  i.row.base + (if i.row.pageCross && cross then 1 else 0) + branchExtra

/-- A read instruction: resolve, `Load`, then the executor `f` (R430). -/
def runRead (B : Bus σ) (i : Instr) (f : Byte → Cpu σ → Cpu σ) (src : ReadOperand) (c : Cpu σ) : Ran σ :=
  match src with
  | .immediate b => ⟨f b (c.advance i.length), cost i false 0⟩
  | .memory m =>
    let l := locate B (c.advance i.length) m
    let r := l.cpu.read B l.ea
    ⟨f r.1 r.2, cost i l.cross 0⟩

/-- A write instruction: resolve, then `Store` of a register, with no read of the target (R431). -/
def runStore (B : Bus σ) (i : Instr) (reg : Cpu σ → Byte) (dst : MemOperand) (c : Cpu σ) : Ran σ :=
  let l := locate B (c.advance i.length) dst
  ⟨l.cpu.write B l.ea (reg l.cpu), cost i l.cross 0⟩

/-- A read-modify-write instruction: resolve, then `Modify` with one read and one write of memory, or of A (R432). -/
def runModify (B : Bus σ) (i : Instr) (f : ByteFunction) (target : ModifyOperand) (c : Cpu σ) : Ran σ :=
  match target with
  | .accumulator =>
    let c1 := c.advance i.length
    let r := f c1.a c1.p
    ⟨{ c1 with a := r.1, p := r.2 }, cost i false 0⟩
  | .memory m =>
    let l := locate B (c.advance i.length) m
    let v := l.cpu.read B l.ea
    let r := f v.1 v.2.p
    ⟨{ v.2.write B l.ea r.1 with p := r.2 }, cost i l.cross 0⟩

/-- `Branch(cond, Relative(rel))` (R700): the target and the page test are relative to the next instruction. -/
def runBranch (i : Instr) (cond : Flags → Bool) (rel : Byte) (c : Cpu σ) : Ran σ :=
  let c1 := c.advance i.length
  let target := c1.pc + sext16 rel
  if cond c1.p then ⟨{ c1 with pc := target }, cost i false (1 + if pagesDiffer target c1.pc then 1 else 0)⟩
  else ⟨c1, cost i false 0⟩

/-- A jump to the resolved address; nothing is read there (R900). -/
def runJump (B : Bus σ) (i : Instr) (target : MemOperand) (c : Cpu σ) : Ran σ :=
  let l := locate B (c.advance i.length) target
  ⟨{ l.cpu with pc := l.ea }, cost i l.cross 0⟩

/-- A call: push the address of the instruction's last byte, then jump (R901). -/
def runCall (B : Bus σ) (i : Instr) (target : Word) (c : Cpu σ) : Ran σ :=
  let c1 := c.advance i.length
  ⟨{ c1.pushWord B (c1.pc - 1) with pc := target }, cost i false 0⟩

/-- An instruction whose only mode is Implied (R411, R433). -/
def runImplied (i : Instr) (f : Cpu σ → Cpu σ) (c : Cpu σ) : Ran σ :=
  ⟨f (c.advance i.length), cost i false 0⟩

/-- A meaning on the machine's RAM: it always completes. -/
def onRam (run : Cpu Memory → Ran Memory) (s : State) : Result := .next ⟨(run s.toCpu).charged⟩

/-- The effective address of an operand in a state: the address an executor loads from, stores to, or jumps to. -/
def State.ea (s : State) (m : MemOperand) : Word := (locate Bus.ram s.toCpu m).ea

/-- Whether the operand's mode crosses a page in a state (R410). -/
def State.crosses (s : State) (m : MemOperand) : Bool := (locate Bus.ram s.toCpu m).cross

/-- The byte at an address in a state. -/
def State.peek (s : State) (a : Word) : Byte := Memory.read s.mem a

/-- Whether a read operand's mode crosses a page in a state: `Immediate` never does (R410, R412). -/
def State.loadCrosses (s : State) : ReadOperand → Bool
  | .immediate _ => false
  | .memory m => s.crosses m

/-- The byte `Load` gives for an operand in a state (R430). -/
def State.load (s : State) : ReadOperand → Byte
  | .immediate b => b
  | .memory m => s.peek (s.ea m)

end Sys2Proof.Machine
end

