-- ==== Sys2Proof/Machine/Arith.lean ====
section
/-! DEFINITION. Arithmetic and compare (41_arith_compare.md): ADC, SBC, CMP, CPX, CPY. All of it is binary, whatever D holds. -/

namespace Sys2Proof.Machine

variable {σ : Type}

/-- `AddCore(m)`: A plus m plus the carry, with the carry, the overflow, Z and N of the sum (R500). -/
def addCore (m : Byte) (c : Cpu σ) : Cpu σ :=
  { c with a := addResult c.a m c.p.c, p := c.p.afterAdd c.a m }

/-- ADC's executor (R501). -/
def adcOp (m : Byte) (c : Cpu σ) : Cpu σ := addCore m c

/-- SBC's executor: `AddCore` of the operand's one's complement (R502). -/
def sbcOp (m : Byte) (c : Cpu σ) : Cpu σ := addCore (~~~m) c

/-- CMP's executor: `Compare(A, m)` (R504). -/
def cmpOp (m : Byte) (c : Cpu σ) : Cpu σ := { c with p := c.p.afterCompare c.a m }

/-- CPX's executor: `Compare(X, m)` (R505). -/
def cpxOp (m : Byte) (c : Cpu σ) : Cpu σ := { c with p := c.p.afterCompare c.x m }

/-- CPY's executor: `Compare(Y, m)` (R506). -/
def cpyOp (m : Byte) (c : Cpu σ) : Cpu σ := { c with p := c.p.afterCompare c.y m }

/-- ADC (zp,X), 0x61 (R501). -/
def execAdcIndX (z : Byte) (s : State) : Result :=
  onRam (runRead Bus.ram (.adcIndX z) adcOp (.memory (.indexedIndirectX z))) s

/-- ADC zp, 0x65 (R501). -/
def execAdcZp (z : Byte) (s : State) : Result :=
  onRam (runRead Bus.ram (.adcZp z) adcOp (.memory (.zeroPage z))) s

/-- ADC #, 0x69 (R501). -/
def execAdcImm (b : Byte) (s : State) : Result :=
  onRam (runRead Bus.ram (.adcImm b) adcOp (.immediate b)) s

/-- ADC abs, 0x6D (R501). -/
def execAdcAbs (addr : Word) (s : State) : Result :=
  onRam (runRead Bus.ram (.adcAbs addr) adcOp (.memory (.absolute addr))) s

/-- ADC (zp),Y, 0x71 (R501). -/
def execAdcIndY (z : Byte) (s : State) : Result :=
  onRam (runRead Bus.ram (.adcIndY z) adcOp (.memory (.indirectIndexedY z))) s

/-- ADC zp,X, 0x75 (R501). -/
def execAdcZpX (z : Byte) (s : State) : Result :=
  onRam (runRead Bus.ram (.adcZpX z) adcOp (.memory (.zeroPageX z))) s

/-- ADC abs,Y, 0x79 (R501). -/
def execAdcAbsY (addr : Word) (s : State) : Result :=
  onRam (runRead Bus.ram (.adcAbsY addr) adcOp (.memory (.absoluteY addr))) s

/-- ADC abs,X, 0x7D (R501). -/
def execAdcAbsX (addr : Word) (s : State) : Result :=
  onRam (runRead Bus.ram (.adcAbsX addr) adcOp (.memory (.absoluteX addr))) s

/-- SBC (zp,X), 0xE1 (R502). -/
def execSbcIndX (z : Byte) (s : State) : Result :=
  onRam (runRead Bus.ram (.sbcIndX z) sbcOp (.memory (.indexedIndirectX z))) s

/-- SBC zp, 0xE5 (R502). -/
def execSbcZp (z : Byte) (s : State) : Result :=
  onRam (runRead Bus.ram (.sbcZp z) sbcOp (.memory (.zeroPage z))) s

/-- SBC #, 0xE9 (R502). -/
def execSbcImm (b : Byte) (s : State) : Result :=
  onRam (runRead Bus.ram (.sbcImm b) sbcOp (.immediate b)) s

/-- SBC abs, 0xED (R502). -/
def execSbcAbs (addr : Word) (s : State) : Result :=
  onRam (runRead Bus.ram (.sbcAbs addr) sbcOp (.memory (.absolute addr))) s

/-- SBC (zp),Y, 0xF1 (R502). -/
def execSbcIndY (z : Byte) (s : State) : Result :=
  onRam (runRead Bus.ram (.sbcIndY z) sbcOp (.memory (.indirectIndexedY z))) s

/-- SBC zp,X, 0xF5 (R502). -/
def execSbcZpX (z : Byte) (s : State) : Result :=
  onRam (runRead Bus.ram (.sbcZpX z) sbcOp (.memory (.zeroPageX z))) s

/-- SBC abs,Y, 0xF9 (R502). -/
def execSbcAbsY (addr : Word) (s : State) : Result :=
  onRam (runRead Bus.ram (.sbcAbsY addr) sbcOp (.memory (.absoluteY addr))) s

/-- SBC abs,X, 0xFD (R502). -/
def execSbcAbsX (addr : Word) (s : State) : Result :=
  onRam (runRead Bus.ram (.sbcAbsX addr) sbcOp (.memory (.absoluteX addr))) s

/-- CMP (zp,X), 0xC1 (R504). -/
def execCmpIndX (z : Byte) (s : State) : Result :=
  onRam (runRead Bus.ram (.cmpIndX z) cmpOp (.memory (.indexedIndirectX z))) s

/-- CMP zp, 0xC5 (R504). -/
def execCmpZp (z : Byte) (s : State) : Result :=
  onRam (runRead Bus.ram (.cmpZp z) cmpOp (.memory (.zeroPage z))) s

/-- CMP #, 0xC9 (R504). -/
def execCmpImm (b : Byte) (s : State) : Result :=
  onRam (runRead Bus.ram (.cmpImm b) cmpOp (.immediate b)) s

/-- CMP abs, 0xCD (R504). -/
def execCmpAbs (addr : Word) (s : State) : Result :=
  onRam (runRead Bus.ram (.cmpAbs addr) cmpOp (.memory (.absolute addr))) s

/-- CMP (zp),Y, 0xD1 (R504). -/
def execCmpIndY (z : Byte) (s : State) : Result :=
  onRam (runRead Bus.ram (.cmpIndY z) cmpOp (.memory (.indirectIndexedY z))) s

/-- CMP zp,X, 0xD5 (R504). -/
def execCmpZpX (z : Byte) (s : State) : Result :=
  onRam (runRead Bus.ram (.cmpZpX z) cmpOp (.memory (.zeroPageX z))) s

/-- CMP abs,Y, 0xD9 (R504). -/
def execCmpAbsY (addr : Word) (s : State) : Result :=
  onRam (runRead Bus.ram (.cmpAbsY addr) cmpOp (.memory (.absoluteY addr))) s

/-- CMP abs,X, 0xDD (R504). -/
def execCmpAbsX (addr : Word) (s : State) : Result :=
  onRam (runRead Bus.ram (.cmpAbsX addr) cmpOp (.memory (.absoluteX addr))) s

/-- CPX #, 0xE0 (R505). -/
def execCpxImm (b : Byte) (s : State) : Result :=
  onRam (runRead Bus.ram (.cpxImm b) cpxOp (.immediate b)) s

/-- CPX zp, 0xE4 (R505). -/
def execCpxZp (z : Byte) (s : State) : Result :=
  onRam (runRead Bus.ram (.cpxZp z) cpxOp (.memory (.zeroPage z))) s

/-- CPX abs, 0xEC (R505). -/
def execCpxAbs (addr : Word) (s : State) : Result :=
  onRam (runRead Bus.ram (.cpxAbs addr) cpxOp (.memory (.absolute addr))) s

/-- CPY #, 0xC0 (R506). -/
def execCpyImm (b : Byte) (s : State) : Result :=
  onRam (runRead Bus.ram (.cpyImm b) cpyOp (.immediate b)) s

/-- CPY zp, 0xC4 (R506). -/
def execCpyZp (z : Byte) (s : State) : Result :=
  onRam (runRead Bus.ram (.cpyZp z) cpyOp (.memory (.zeroPage z))) s

/-- CPY abs, 0xCC (R506). -/
def execCpyAbs (addr : Word) (s : State) : Result :=
  onRam (runRead Bus.ram (.cpyAbs addr) cpyOp (.memory (.absolute addr))) s

end Sys2Proof.Machine
end

