-- ==== Sys2Proof/Machine/Branch.lean ====
section
/-! DEFINITION. Branches, BIT, and the setting and clearing of flags (43_branch_bit_flag.md). -/

namespace Sys2Proof.Machine

variable {σ : Type}

/-- BCC is taken with C clear (R701). -/
def bccCond (p : Flags) : Bool := !p.c

/-- BCS is taken with C set (R702). -/
def bcsCond (p : Flags) : Bool := p.c

/-- BEQ is taken with Z set (R703). -/
def beqCond (p : Flags) : Bool := p.z

/-- BNE is taken with Z clear (R704). -/
def bneCond (p : Flags) : Bool := !p.z

/-- BMI is taken with N set (R705). -/
def bmiCond (p : Flags) : Bool := p.n

/-- BPL is taken with N clear (R706). -/
def bplCond (p : Flags) : Bool := !p.n

/-- BVC is taken with V clear (R707). -/
def bvcCond (p : Flags) : Bool := !p.v

/-- BVS is taken with V set (R708). -/
def bvsCond (p : Flags) : Bool := p.v

/-- BIT's executor: A is unchanged (R710). -/
def bitOp (m : Byte) (c : Cpu σ) : Cpu σ := { c with p := c.p.afterBit c.a m }

/-- SEC's executor: C set (R720). -/
def secOp (c : Cpu σ) : Cpu σ := { c with p := { c.p with c := true } }

/-- CLC's executor: C cleared (R721). -/
def clcOp (c : Cpu σ) : Cpu σ := { c with p := { c.p with c := false } }

/-- SED's executor: D set (R722). -/
def sedOp (c : Cpu σ) : Cpu σ := { c with p := { c.p with d := true } }

/-- CLD's executor: D cleared (R723). -/
def cldOp (c : Cpu σ) : Cpu σ := { c with p := { c.p with d := false } }

/-- SEI's executor: I set (R724). -/
def seiOp (c : Cpu σ) : Cpu σ := { c with p := { c.p with i := true } }

/-- CLI's executor: I cleared (R725). -/
def cliOp (c : Cpu σ) : Cpu σ := { c with p := { c.p with i := false } }

/-- CLV's executor: V cleared (R726). -/
def clvOp (c : Cpu σ) : Cpu σ := { c with p := { c.p with v := false } }

/-- BCC rel, 0x90 (R701). -/
def execBcc (rel : Byte) (s : State) : Result :=
  onRam (runBranch (.bcc rel) bccCond rel) s

/-- BCS rel, 0xB0 (R702). -/
def execBcs (rel : Byte) (s : State) : Result :=
  onRam (runBranch (.bcs rel) bcsCond rel) s

/-- BEQ rel, 0xF0 (R703). -/
def execBeq (rel : Byte) (s : State) : Result :=
  onRam (runBranch (.beq rel) beqCond rel) s

/-- BNE rel, 0xD0 (R704). -/
def execBne (rel : Byte) (s : State) : Result :=
  onRam (runBranch (.bne rel) bneCond rel) s

/-- BMI rel, 0x30 (R705). -/
def execBmi (rel : Byte) (s : State) : Result :=
  onRam (runBranch (.bmi rel) bmiCond rel) s

/-- BPL rel, 0x10 (R706). -/
def execBpl (rel : Byte) (s : State) : Result :=
  onRam (runBranch (.bpl rel) bplCond rel) s

/-- BVC rel, 0x50 (R707). -/
def execBvc (rel : Byte) (s : State) : Result :=
  onRam (runBranch (.bvc rel) bvcCond rel) s

/-- BVS rel, 0x70 (R708). -/
def execBvs (rel : Byte) (s : State) : Result :=
  onRam (runBranch (.bvs rel) bvsCond rel) s

/-- BIT zp, 0x24 (R710). -/
def execBitZp (z : Byte) (s : State) : Result :=
  onRam (runRead Bus.ram (.bitZp z) bitOp (.memory (.zeroPage z))) s

/-- BIT abs, 0x2C (R710). -/
def execBitAbs (addr : Word) (s : State) : Result :=
  onRam (runRead Bus.ram (.bitAbs addr) bitOp (.memory (.absolute addr))) s

/-- SEC, 0x38 (R720). -/
def execSec (s : State) : Result :=
  onRam (runImplied .sec secOp) s

/-- CLC, 0x18 (R721). -/
def execClc (s : State) : Result :=
  onRam (runImplied .clc clcOp) s

/-- SED, 0xF8 (R722). -/
def execSed (s : State) : Result :=
  onRam (runImplied .sed sedOp) s

/-- CLD, 0xD8 (R723). -/
def execCld (s : State) : Result :=
  onRam (runImplied .cld cldOp) s

/-- SEI, 0x78 (R724). -/
def execSei (s : State) : Result :=
  onRam (runImplied .sei seiOp) s

/-- CLI, 0x58 (R725). -/
def execCli (s : State) : Result :=
  onRam (runImplied .cli cliOp) s

/-- CLV, 0xB8 (R726). -/
def execClv (s : State) : Result :=
  onRam (runImplied .clv clvOp) s

end Sys2Proof.Machine
end

