-- ==== Sys2Proof/Machine/Control.lean ====
section
/-! DEFINITION. Jumps, subroutines, the software interrupt and NOP (45_jump_interrupt_nop.md). -/

namespace Sys2Proof.Machine

variable {σ : Type}

/-- RTS's executor: to the popped word plus one (R902). -/
def rtsOp (B : Bus σ) (c : Cpu σ) : Cpu σ :=
  let w := c.popWord B
  { w.2 with pc := w.1 + 1 }

/-- BRK's executor. PC is the BRK address + 1, so the pushed word is the BRK address + 2 (R903). -/
def brkOp (B : Bus σ) (c : Cpu σ) : Cpu σ :=
  c.enterHandler B (c.pc + 1) c.p.pushedByInstruction Config.irqVector

/-- RTI's executor (R904). -/
def rtiOp (B : Bus σ) (c : Cpu σ) : Cpu σ := c.returnFromHandler B

/-- NOP's executor: nothing (R905). -/
def nopOp (c : Cpu σ) : Cpu σ := c

/-- JMP abs, 0x4C (R900). -/
def execJmpAbs (addr : Word) (s : State) : Result :=
  onRam (runJump Bus.ram (.jmpAbs addr) (.absolute addr)) s

/-- JMP (abs), 0x6C (R900). -/
def execJmpInd (addr : Word) (s : State) : Result :=
  onRam (runJump Bus.ram (.jmpInd addr) (.indirect addr)) s

/-- JSR abs, 0x20 (R901). -/
def execJsr (addr : Word) (s : State) : Result :=
  onRam (runCall Bus.ram (.jsr addr) addr) s

/-- RTS, 0x60 (R902). -/
def execRts (s : State) : Result :=
  onRam (runImplied .rts (rtsOp Bus.ram)) s

/-- BRK, 0x00 (R903). -/
def execBrk (s : State) : Result :=
  onRam (runImplied .brk (brkOp Bus.ram)) s

/-- RTI, 0x40 (R904). -/
def execRti (s : State) : Result :=
  onRam (runImplied .rti (rtiOp Bus.ram)) s

/-- NOP, 0xEA (R905). -/
def execNop (s : State) : Result :=
  onRam (runImplied .nop nopOp) s

end Sys2Proof.Machine
end

