-- ==== Sys2Proof/Machine/LoadStore.lean ====
section
/-! DEFINITION. Loads, stores and bitwise logic (46_load_store_logic.md). -/

namespace Sys2Proof.Machine

variable {σ : Type}

/-- LDA's executor (R1000). -/
def ldaOp (m : Byte) (c : Cpu σ) : Cpu σ := { c with a := m, p := c.p.setZN m }

/-- LDX's executor (R1001). -/
def ldxOp (m : Byte) (c : Cpu σ) : Cpu σ := { c with x := m, p := c.p.setZN m }

/-- LDY's executor (R1002). -/
def ldyOp (m : Byte) (c : Cpu σ) : Cpu σ := { c with y := m, p := c.p.setZN m }

/-- AND's executor (R1006). -/
def andOp (m : Byte) (c : Cpu σ) : Cpu σ := { c with a := c.a &&& m, p := c.p.setZN (c.a &&& m) }

/-- ORA's executor (R1007). -/
def oraOp (m : Byte) (c : Cpu σ) : Cpu σ := { c with a := c.a ||| m, p := c.p.setZN (c.a ||| m) }

/-- EOR's executor (R1008). -/
def eorOp (m : Byte) (c : Cpu σ) : Cpu σ := { c with a := c.a ^^^ m, p := c.p.setZN (c.a ^^^ m) }

/-- LDA (zp,X), 0xA1 (R1000). -/
def execLdaIndX (z : Byte) (s : State) : Result :=
  onRam (runRead Bus.ram (.ldaIndX z) ldaOp (.memory (.indexedIndirectX z))) s

/-- LDA zp, 0xA5 (R1000). -/
def execLdaZp (z : Byte) (s : State) : Result :=
  onRam (runRead Bus.ram (.ldaZp z) ldaOp (.memory (.zeroPage z))) s

/-- LDA #, 0xA9 (R1000). -/
def execLdaImm (b : Byte) (s : State) : Result :=
  onRam (runRead Bus.ram (.ldaImm b) ldaOp (.immediate b)) s

/-- LDA abs, 0xAD (R1000). -/
def execLdaAbs (addr : Word) (s : State) : Result :=
  onRam (runRead Bus.ram (.ldaAbs addr) ldaOp (.memory (.absolute addr))) s

/-- LDA (zp),Y, 0xB1 (R1000). -/
def execLdaIndY (z : Byte) (s : State) : Result :=
  onRam (runRead Bus.ram (.ldaIndY z) ldaOp (.memory (.indirectIndexedY z))) s

/-- LDA zp,X, 0xB5 (R1000). -/
def execLdaZpX (z : Byte) (s : State) : Result :=
  onRam (runRead Bus.ram (.ldaZpX z) ldaOp (.memory (.zeroPageX z))) s

/-- LDA abs,Y, 0xB9 (R1000). -/
def execLdaAbsY (addr : Word) (s : State) : Result :=
  onRam (runRead Bus.ram (.ldaAbsY addr) ldaOp (.memory (.absoluteY addr))) s

/-- LDA abs,X, 0xBD (R1000). -/
def execLdaAbsX (addr : Word) (s : State) : Result :=
  onRam (runRead Bus.ram (.ldaAbsX addr) ldaOp (.memory (.absoluteX addr))) s

/-- LDX #, 0xA2 (R1001). -/
def execLdxImm (b : Byte) (s : State) : Result :=
  onRam (runRead Bus.ram (.ldxImm b) ldxOp (.immediate b)) s

/-- LDX zp, 0xA6 (R1001). -/
def execLdxZp (z : Byte) (s : State) : Result :=
  onRam (runRead Bus.ram (.ldxZp z) ldxOp (.memory (.zeroPage z))) s

/-- LDX abs, 0xAE (R1001). -/
def execLdxAbs (addr : Word) (s : State) : Result :=
  onRam (runRead Bus.ram (.ldxAbs addr) ldxOp (.memory (.absolute addr))) s

/-- LDX zp,Y, 0xB6 (R1001). -/
def execLdxZpY (z : Byte) (s : State) : Result :=
  onRam (runRead Bus.ram (.ldxZpY z) ldxOp (.memory (.zeroPageY z))) s

/-- LDX abs,Y, 0xBE (R1001). -/
def execLdxAbsY (addr : Word) (s : State) : Result :=
  onRam (runRead Bus.ram (.ldxAbsY addr) ldxOp (.memory (.absoluteY addr))) s

/-- LDY #, 0xA0 (R1002). -/
def execLdyImm (b : Byte) (s : State) : Result :=
  onRam (runRead Bus.ram (.ldyImm b) ldyOp (.immediate b)) s

/-- LDY zp, 0xA4 (R1002). -/
def execLdyZp (z : Byte) (s : State) : Result :=
  onRam (runRead Bus.ram (.ldyZp z) ldyOp (.memory (.zeroPage z))) s

/-- LDY abs, 0xAC (R1002). -/
def execLdyAbs (addr : Word) (s : State) : Result :=
  onRam (runRead Bus.ram (.ldyAbs addr) ldyOp (.memory (.absolute addr))) s

/-- LDY zp,X, 0xB4 (R1002). -/
def execLdyZpX (z : Byte) (s : State) : Result :=
  onRam (runRead Bus.ram (.ldyZpX z) ldyOp (.memory (.zeroPageX z))) s

/-- LDY abs,X, 0xBC (R1002). -/
def execLdyAbsX (addr : Word) (s : State) : Result :=
  onRam (runRead Bus.ram (.ldyAbsX addr) ldyOp (.memory (.absoluteX addr))) s

/-- STA (zp,X), 0x81 (R1003). -/
def execStaIndX (z : Byte) (s : State) : Result :=
  onRam (runStore Bus.ram (.staIndX z) (·.a) (.indexedIndirectX z)) s

/-- STA zp, 0x85 (R1003). -/
def execStaZp (z : Byte) (s : State) : Result :=
  onRam (runStore Bus.ram (.staZp z) (·.a) (.zeroPage z)) s

/-- STA abs, 0x8D (R1003). -/
def execStaAbs (addr : Word) (s : State) : Result :=
  onRam (runStore Bus.ram (.staAbs addr) (·.a) (.absolute addr)) s

/-- STA (zp),Y, 0x91 (R1003). -/
def execStaIndY (z : Byte) (s : State) : Result :=
  onRam (runStore Bus.ram (.staIndY z) (·.a) (.indirectIndexedY z)) s

/-- STA zp,X, 0x95 (R1003). -/
def execStaZpX (z : Byte) (s : State) : Result :=
  onRam (runStore Bus.ram (.staZpX z) (·.a) (.zeroPageX z)) s

/-- STA abs,Y, 0x99 (R1003). -/
def execStaAbsY (addr : Word) (s : State) : Result :=
  onRam (runStore Bus.ram (.staAbsY addr) (·.a) (.absoluteY addr)) s

/-- STA abs,X, 0x9D (R1003). -/
def execStaAbsX (addr : Word) (s : State) : Result :=
  onRam (runStore Bus.ram (.staAbsX addr) (·.a) (.absoluteX addr)) s

/-- STX zp, 0x86 (R1004). -/
def execStxZp (z : Byte) (s : State) : Result :=
  onRam (runStore Bus.ram (.stxZp z) (·.x) (.zeroPage z)) s

/-- STX abs, 0x8E (R1004). -/
def execStxAbs (addr : Word) (s : State) : Result :=
  onRam (runStore Bus.ram (.stxAbs addr) (·.x) (.absolute addr)) s

/-- STX zp,Y, 0x96 (R1004). -/
def execStxZpY (z : Byte) (s : State) : Result :=
  onRam (runStore Bus.ram (.stxZpY z) (·.x) (.zeroPageY z)) s

/-- STY zp, 0x84 (R1005). -/
def execStyZp (z : Byte) (s : State) : Result :=
  onRam (runStore Bus.ram (.styZp z) (·.y) (.zeroPage z)) s

/-- STY abs, 0x8C (R1005). -/
def execStyAbs (addr : Word) (s : State) : Result :=
  onRam (runStore Bus.ram (.styAbs addr) (·.y) (.absolute addr)) s

/-- STY zp,X, 0x94 (R1005). -/
def execStyZpX (z : Byte) (s : State) : Result :=
  onRam (runStore Bus.ram (.styZpX z) (·.y) (.zeroPageX z)) s

/-- AND (zp,X), 0x21 (R1006). -/
def execAndIndX (z : Byte) (s : State) : Result :=
  onRam (runRead Bus.ram (.andIndX z) andOp (.memory (.indexedIndirectX z))) s

/-- AND zp, 0x25 (R1006). -/
def execAndZp (z : Byte) (s : State) : Result :=
  onRam (runRead Bus.ram (.andZp z) andOp (.memory (.zeroPage z))) s

/-- AND #, 0x29 (R1006). -/
def execAndImm (b : Byte) (s : State) : Result :=
  onRam (runRead Bus.ram (.andImm b) andOp (.immediate b)) s

/-- AND abs, 0x2D (R1006). -/
def execAndAbs (addr : Word) (s : State) : Result :=
  onRam (runRead Bus.ram (.andAbs addr) andOp (.memory (.absolute addr))) s

/-- AND (zp),Y, 0x31 (R1006). -/
def execAndIndY (z : Byte) (s : State) : Result :=
  onRam (runRead Bus.ram (.andIndY z) andOp (.memory (.indirectIndexedY z))) s

/-- AND zp,X, 0x35 (R1006). -/
def execAndZpX (z : Byte) (s : State) : Result :=
  onRam (runRead Bus.ram (.andZpX z) andOp (.memory (.zeroPageX z))) s

/-- AND abs,Y, 0x39 (R1006). -/
def execAndAbsY (addr : Word) (s : State) : Result :=
  onRam (runRead Bus.ram (.andAbsY addr) andOp (.memory (.absoluteY addr))) s

/-- AND abs,X, 0x3D (R1006). -/
def execAndAbsX (addr : Word) (s : State) : Result :=
  onRam (runRead Bus.ram (.andAbsX addr) andOp (.memory (.absoluteX addr))) s

/-- ORA (zp,X), 0x01 (R1007). -/
def execOraIndX (z : Byte) (s : State) : Result :=
  onRam (runRead Bus.ram (.oraIndX z) oraOp (.memory (.indexedIndirectX z))) s

/-- ORA zp, 0x05 (R1007). -/
def execOraZp (z : Byte) (s : State) : Result :=
  onRam (runRead Bus.ram (.oraZp z) oraOp (.memory (.zeroPage z))) s

/-- ORA #, 0x09 (R1007). -/
def execOraImm (b : Byte) (s : State) : Result :=
  onRam (runRead Bus.ram (.oraImm b) oraOp (.immediate b)) s

/-- ORA abs, 0x0D (R1007). -/
def execOraAbs (addr : Word) (s : State) : Result :=
  onRam (runRead Bus.ram (.oraAbs addr) oraOp (.memory (.absolute addr))) s

/-- ORA (zp),Y, 0x11 (R1007). -/
def execOraIndY (z : Byte) (s : State) : Result :=
  onRam (runRead Bus.ram (.oraIndY z) oraOp (.memory (.indirectIndexedY z))) s

/-- ORA zp,X, 0x15 (R1007). -/
def execOraZpX (z : Byte) (s : State) : Result :=
  onRam (runRead Bus.ram (.oraZpX z) oraOp (.memory (.zeroPageX z))) s

/-- ORA abs,Y, 0x19 (R1007). -/
def execOraAbsY (addr : Word) (s : State) : Result :=
  onRam (runRead Bus.ram (.oraAbsY addr) oraOp (.memory (.absoluteY addr))) s

/-- ORA abs,X, 0x1D (R1007). -/
def execOraAbsX (addr : Word) (s : State) : Result :=
  onRam (runRead Bus.ram (.oraAbsX addr) oraOp (.memory (.absoluteX addr))) s

/-- EOR (zp,X), 0x41 (R1008). -/
def execEorIndX (z : Byte) (s : State) : Result :=
  onRam (runRead Bus.ram (.eorIndX z) eorOp (.memory (.indexedIndirectX z))) s

/-- EOR zp, 0x45 (R1008). -/
def execEorZp (z : Byte) (s : State) : Result :=
  onRam (runRead Bus.ram (.eorZp z) eorOp (.memory (.zeroPage z))) s

/-- EOR #, 0x49 (R1008). -/
def execEorImm (b : Byte) (s : State) : Result :=
  onRam (runRead Bus.ram (.eorImm b) eorOp (.immediate b)) s

/-- EOR abs, 0x4D (R1008). -/
def execEorAbs (addr : Word) (s : State) : Result :=
  onRam (runRead Bus.ram (.eorAbs addr) eorOp (.memory (.absolute addr))) s

/-- EOR (zp),Y, 0x51 (R1008). -/
def execEorIndY (z : Byte) (s : State) : Result :=
  onRam (runRead Bus.ram (.eorIndY z) eorOp (.memory (.indirectIndexedY z))) s

/-- EOR zp,X, 0x55 (R1008). -/
def execEorZpX (z : Byte) (s : State) : Result :=
  onRam (runRead Bus.ram (.eorZpX z) eorOp (.memory (.zeroPageX z))) s

/-- EOR abs,Y, 0x59 (R1008). -/
def execEorAbsY (addr : Word) (s : State) : Result :=
  onRam (runRead Bus.ram (.eorAbsY addr) eorOp (.memory (.absoluteY addr))) s

/-- EOR abs,X, 0x5D (R1008). -/
def execEorAbsX (addr : Word) (s : State) : Result :=
  onRam (runRead Bus.ram (.eorAbsX addr) eorOp (.memory (.absoluteX addr))) s

end Sys2Proof.Machine
end

