-- ==== Sys2Proof/Machine/Shift.lean ====
section
/-! DEFINITION. Shifts, rotates, increments and decrements (42_shift_incdec.md). -/

namespace Sys2Proof.Machine

variable {σ : Type}

/-- INX's executor (R606). -/
def inxOp (c : Cpu σ) : Cpu σ := { c with x := c.x + 1, p := c.p.setZN (c.x + 1) }

/-- INY's executor (R607). -/
def inyOp (c : Cpu σ) : Cpu σ := { c with y := c.y + 1, p := c.p.setZN (c.y + 1) }

/-- DEX's executor (R608). -/
def dexOp (c : Cpu σ) : Cpu σ := { c with x := c.x - 1, p := c.p.setZN (c.x - 1) }

/-- DEY's executor (R609). -/
def deyOp (c : Cpu σ) : Cpu σ := { c with y := c.y - 1, p := c.p.setZN (c.y - 1) }

/-- ASL zp, 0x06 (R600). -/
def execAslZp (z : Byte) (s : State) : Result :=
  onRam (runModify Bus.ram (.aslZp z) aslByte (.memory (.zeroPage z))) s

/-- ASL A, 0x0A (R600). -/
def execAslAcc (s : State) : Result :=
  onRam (runModify Bus.ram .aslAcc aslByte .accumulator) s

/-- ASL abs, 0x0E (R600). -/
def execAslAbs (addr : Word) (s : State) : Result :=
  onRam (runModify Bus.ram (.aslAbs addr) aslByte (.memory (.absolute addr))) s

/-- ASL zp,X, 0x16 (R600). -/
def execAslZpX (z : Byte) (s : State) : Result :=
  onRam (runModify Bus.ram (.aslZpX z) aslByte (.memory (.zeroPageX z))) s

/-- ASL abs,X, 0x1E (R600). -/
def execAslAbsX (addr : Word) (s : State) : Result :=
  onRam (runModify Bus.ram (.aslAbsX addr) aslByte (.memory (.absoluteX addr))) s

/-- LSR zp, 0x46 (R601). -/
def execLsrZp (z : Byte) (s : State) : Result :=
  onRam (runModify Bus.ram (.lsrZp z) lsrByte (.memory (.zeroPage z))) s

/-- LSR A, 0x4A (R601). -/
def execLsrAcc (s : State) : Result :=
  onRam (runModify Bus.ram .lsrAcc lsrByte .accumulator) s

/-- LSR abs, 0x4E (R601). -/
def execLsrAbs (addr : Word) (s : State) : Result :=
  onRam (runModify Bus.ram (.lsrAbs addr) lsrByte (.memory (.absolute addr))) s

/-- LSR zp,X, 0x56 (R601). -/
def execLsrZpX (z : Byte) (s : State) : Result :=
  onRam (runModify Bus.ram (.lsrZpX z) lsrByte (.memory (.zeroPageX z))) s

/-- LSR abs,X, 0x5E (R601). -/
def execLsrAbsX (addr : Word) (s : State) : Result :=
  onRam (runModify Bus.ram (.lsrAbsX addr) lsrByte (.memory (.absoluteX addr))) s

/-- ROL zp, 0x26 (R602). -/
def execRolZp (z : Byte) (s : State) : Result :=
  onRam (runModify Bus.ram (.rolZp z) rolByte (.memory (.zeroPage z))) s

/-- ROL A, 0x2A (R602). -/
def execRolAcc (s : State) : Result :=
  onRam (runModify Bus.ram .rolAcc rolByte .accumulator) s

/-- ROL abs, 0x2E (R602). -/
def execRolAbs (addr : Word) (s : State) : Result :=
  onRam (runModify Bus.ram (.rolAbs addr) rolByte (.memory (.absolute addr))) s

/-- ROL zp,X, 0x36 (R602). -/
def execRolZpX (z : Byte) (s : State) : Result :=
  onRam (runModify Bus.ram (.rolZpX z) rolByte (.memory (.zeroPageX z))) s

/-- ROL abs,X, 0x3E (R602). -/
def execRolAbsX (addr : Word) (s : State) : Result :=
  onRam (runModify Bus.ram (.rolAbsX addr) rolByte (.memory (.absoluteX addr))) s

/-- ROR zp, 0x66 (R603). -/
def execRorZp (z : Byte) (s : State) : Result :=
  onRam (runModify Bus.ram (.rorZp z) rorByte (.memory (.zeroPage z))) s

/-- ROR A, 0x6A (R603). -/
def execRorAcc (s : State) : Result :=
  onRam (runModify Bus.ram .rorAcc rorByte .accumulator) s

/-- ROR abs, 0x6E (R603). -/
def execRorAbs (addr : Word) (s : State) : Result :=
  onRam (runModify Bus.ram (.rorAbs addr) rorByte (.memory (.absolute addr))) s

/-- ROR zp,X, 0x76 (R603). -/
def execRorZpX (z : Byte) (s : State) : Result :=
  onRam (runModify Bus.ram (.rorZpX z) rorByte (.memory (.zeroPageX z))) s

/-- ROR abs,X, 0x7E (R603). -/
def execRorAbsX (addr : Word) (s : State) : Result :=
  onRam (runModify Bus.ram (.rorAbsX addr) rorByte (.memory (.absoluteX addr))) s

/-- INC zp, 0xE6 (R604). -/
def execIncZp (z : Byte) (s : State) : Result :=
  onRam (runModify Bus.ram (.incZp z) incByte (.memory (.zeroPage z))) s

/-- INC abs, 0xEE (R604). -/
def execIncAbs (addr : Word) (s : State) : Result :=
  onRam (runModify Bus.ram (.incAbs addr) incByte (.memory (.absolute addr))) s

/-- INC zp,X, 0xF6 (R604). -/
def execIncZpX (z : Byte) (s : State) : Result :=
  onRam (runModify Bus.ram (.incZpX z) incByte (.memory (.zeroPageX z))) s

/-- INC abs,X, 0xFE (R604). -/
def execIncAbsX (addr : Word) (s : State) : Result :=
  onRam (runModify Bus.ram (.incAbsX addr) incByte (.memory (.absoluteX addr))) s

/-- DEC zp, 0xC6 (R605). -/
def execDecZp (z : Byte) (s : State) : Result :=
  onRam (runModify Bus.ram (.decZp z) decByte (.memory (.zeroPage z))) s

/-- DEC abs, 0xCE (R605). -/
def execDecAbs (addr : Word) (s : State) : Result :=
  onRam (runModify Bus.ram (.decAbs addr) decByte (.memory (.absolute addr))) s

/-- DEC zp,X, 0xD6 (R605). -/
def execDecZpX (z : Byte) (s : State) : Result :=
  onRam (runModify Bus.ram (.decZpX z) decByte (.memory (.zeroPageX z))) s

/-- DEC abs,X, 0xDE (R605). -/
def execDecAbsX (addr : Word) (s : State) : Result :=
  onRam (runModify Bus.ram (.decAbsX addr) decByte (.memory (.absoluteX addr))) s

/-- INX, 0xE8 (R606). -/
def execInx (s : State) : Result :=
  onRam (runImplied .inx inxOp) s

/-- INY, 0xC8 (R607). -/
def execIny (s : State) : Result :=
  onRam (runImplied .iny inyOp) s

/-- DEX, 0xCA (R608). -/
def execDex (s : State) : Result :=
  onRam (runImplied .dex dexOp) s

/-- DEY, 0x88 (R609). -/
def execDey (s : State) : Result :=
  onRam (runImplied .dey deyOp) s

end Sys2Proof.Machine
end

