-- ==== Sys2Proof/Machine/Transfer.lean ====
section
/-! DEFINITION. Register transfers and stack instructions (44_transfer_stack.md). -/

namespace Sys2Proof.Machine

variable {σ : Type}

/-- TAX's executor (R800). -/
def taxOp (c : Cpu σ) : Cpu σ := { c with x := c.a, p := c.p.setZN c.a }

/-- TAY's executor (R801). -/
def tayOp (c : Cpu σ) : Cpu σ := { c with y := c.a, p := c.p.setZN c.a }

/-- TXA's executor (R802). -/
def txaOp (c : Cpu σ) : Cpu σ := { c with a := c.x, p := c.p.setZN c.x }

/-- TYA's executor (R803). -/
def tyaOp (c : Cpu σ) : Cpu σ := { c with a := c.y, p := c.p.setZN c.y }

/-- TSX's executor (R804). -/
def tsxOp (c : Cpu σ) : Cpu σ := { c with x := c.sp, p := c.p.setZN c.sp }

/-- TXS's executor, the only transfer that writes no flag (R805). -/
def txsOp (c : Cpu σ) : Cpu σ := { c with sp := c.x }

/-- PHA's executor (R810). -/
def phaOp (B : Bus σ) (c : Cpu σ) : Cpu σ := c.push B c.a

/-- PHP's executor (R811). -/
def phpOp (B : Bus σ) (c : Cpu σ) : Cpu σ := c.push B c.p.pushedByInstruction

/-- PLA's executor (R812). -/
def plaOp (B : Bus σ) (c : Cpu σ) : Cpu σ :=
  let r := c.pop B
  { r.2 with a := r.1, p := r.2.p.setZN r.1 }

/-- PLP's executor: all eight flags, verbatim (R813). -/
def plpOp (B : Bus σ) (c : Cpu σ) : Cpu σ :=
  let r := c.pop B
  { r.2 with p := Flags.unpack r.1 }

/-- TAX, 0xAA (R800). -/
def execTax (s : State) : Result :=
  onRam (runImplied .tax taxOp) s

/-- TAY, 0xA8 (R801). -/
def execTay (s : State) : Result :=
  onRam (runImplied .tay tayOp) s

/-- TXA, 0x8A (R802). -/
def execTxa (s : State) : Result :=
  onRam (runImplied .txa txaOp) s

/-- TYA, 0x98 (R803). -/
def execTya (s : State) : Result :=
  onRam (runImplied .tya tyaOp) s

/-- TSX, 0xBA (R804). -/
def execTsx (s : State) : Result :=
  onRam (runImplied .tsx tsxOp) s

/-- TXS, 0x9A (R805). -/
def execTxs (s : State) : Result :=
  onRam (runImplied .txs txsOp) s

/-- PHA, 0x48 (R810). -/
def execPha (s : State) : Result :=
  onRam (runImplied .pha (phaOp Bus.ram)) s

/-- PHP, 0x08 (R811). -/
def execPhp (s : State) : Result :=
  onRam (runImplied .php (phpOp Bus.ram)) s

/-- PLA, 0x68 (R812). -/
def execPla (s : State) : Result :=
  onRam (runImplied .pla (plaOp Bus.ram)) s

/-- PLP, 0x28 (R813). -/
def execPlp (s : State) : Result :=
  onRam (runImplied .plp (plpOp Bus.ram)) s

end Sys2Proof.Machine
end

