-- ==== Sys2Proof/Machine/Step.lean ====
section
/-! DEFINITION. One step of the machine (40_execution_and_addressing.md R400, 60_exceptions.md R1110, R1113). -/

namespace Sys2Proof.Machine

/-- One `step()` on the machine's RAM: a latched fault is reported again; else a pending interrupt is taken; else the
instruction at PC runs, or its opcode is invalid and the fault is latched (R400, R1113; log 3). -/
def step (s : State) : Host.Outcome State Fault Refusal :=
  match s.fault with
  | some (opcode, pc) => .fault (.illegalOpcode opcode pc)
  | none =>
    match s.toCpu.interruptPending with
    | some src => .next ⟨s.toCpu.takeInterrupt Bus.ram src⟩
    | none =>
      match s.toCpu.fetch Bus.ram with
      | .invalid opcode c => .next ⟨c.raiseIllegalOpcode opcode⟩
      | .instr i c => exec i ⟨c⟩

/-- `s` with the instruction whose bits are `w`, as the opcode table numbers them, stored at PC, where the next step
fetches it; with no fault latched and no interrupt that the next step would take instead (log 6). -/
def State.withFetchWord (s : State) (nbits w : Nat) : State :=
  { s with
    nmiPending := false
    irqLine := s.irqLine && s.p.i
    fault := none
    mem :=
      Memory.write
        (Memory.write (Memory.write s.mem s.pc (tableByte nbits w 0)) (s.pc + 1) (tableByte nbits w 1))
        (s.pc + 2) (tableByte nbits w 2) }

end Sys2Proof.Machine
end

