-- ==== Sys2Proof/Machine/Assembly.lean ====
section
/-! DEFINITION. Assembler text (30_encoding.md R309): how an instruction is written, and the assembler's choice of the
zero-page form. No execution depends on it. -/

namespace Sys2Proof.Machine

/-- A hexadecimal digit. -/
def hexDigit (n : Nat) : String := String.singleton (Char.ofNat (if n < 10 then 48 + n else 55 + n))

/-- `$zz`. -/
def hexByte (b : Byte) : String := "$" ++ hexDigit (b.toNat / 16) ++ hexDigit (b.toNat % 16)

/-- `$hhll`. -/
def hexWord (w : Word) : String :=
  "$" ++ hexDigit (w.toNat / 4096) ++ hexDigit (w.toNat / 256 % 16) ++ hexDigit (w.toNat / 16 % 16) ++
    hexDigit (w.toNat % 16)

/-- The mnemonic of a read operation. -/
def readMnemonic : ReadOp → String
  | .adc => "ADC"
  | .sbc => "SBC"
  | .and => "AND"
  | .ora => "ORA"
  | .eor => "EOR"
  | .cmp => "CMP"
  | .cpx => "CPX"
  | .cpy => "CPY"
  | .bit => "BIT"
  | .lda => "LDA"
  | .ldx => "LDX"
  | .ldy => "LDY"

/-- The mnemonic of a write operation. -/
def storeMnemonic : StoreOp → String
  | .sta => "STA"
  | .stx => "STX"
  | .sty => "STY"

/-- The mnemonic of a read-modify-write operation. -/
def modifyMnemonic : ModifyOp → String
  | .asl => "ASL"
  | .lsr => "LSR"
  | .rol => "ROL"
  | .ror => "ROR"
  | .inc => "INC"
  | .dec => "DEC"

/-- The mnemonic of a branch. -/
def branchMnemonic : BranchOp → String
  | .bcc => "BCC"
  | .bcs => "BCS"
  | .beq => "BEQ"
  | .bne => "BNE"
  | .bmi => "BMI"
  | .bpl => "BPL"
  | .bvc => "BVC"
  | .bvs => "BVS"

/-- The mnemonic of an operation whose only mode is Implied. -/
def impliedMnemonic : ImpliedOp → String
  | .inx => "INX"
  | .iny => "INY"
  | .dex => "DEX"
  | .dey => "DEY"
  | .sec => "SEC"
  | .clc => "CLC"
  | .sed => "SED"
  | .cld => "CLD"
  | .sei => "SEI"
  | .cli => "CLI"
  | .clv => "CLV"
  | .tax => "TAX"
  | .tay => "TAY"
  | .txa => "TXA"
  | .tya => "TYA"
  | .tsx => "TSX"
  | .txs => "TXS"
  | .pha => "PHA"
  | .php => "PHP"
  | .pla => "PLA"
  | .plp => "PLP"
  | .rts => "RTS"
  | .brk => "BRK"
  | .rti => "RTI"
  | .nop => "NOP"

/-- The mnemonic of an operation (R300). -/
def mnemonic : Op → String
  | .read o => readMnemonic o
  | .store o => storeMnemonic o
  | .modify o => modifyMnemonic o
  | .branch o => branchMnemonic o
  | .jmp => "JMP"
  | .jsr => "JSR"
  | .implied o => impliedMnemonic o

/-- The operand syntax of the modes that give an address (R309). -/
def memText : MemOperand → String
  | .zeroPage z => hexByte z
  | .zeroPageX z => hexByte z ++ ",X"
  | .zeroPageY z => hexByte z ++ ",Y"
  | .absolute a => hexWord a
  | .absoluteX a => hexWord a ++ ",X"
  | .absoluteY a => hexWord a ++ ",Y"
  | .indirect a => "(" ++ hexWord a ++ ")"
  | .indexedIndirectX z => "(" ++ hexByte z ++ ",X)"
  | .indirectIndexedY z => "(" ++ hexByte z ++ "),Y"

/-- The target a branch at `addr` with the offset byte `rel` is written with (R309). -/
def branchTarget (addr : Word) (rel : Byte) : Word := addr + 2 + sext16 rel

/-- The offset byte of a branch at `addr` to `target`: `target - (addr + 2)`, where it lies in -128..+127 (R309).
DESIGN CHOICE (log 10): the difference is taken modulo 65536, as R700 takes the sum. -/
def branchOffset (addr target : Word) : Option Byte :=
  let offset := target - (addr + 2)
  if sext16 (lowByte offset) = offset then some (lowByte offset) else none

/-- The operand text of a form at address `addr`; empty for Implied (R309). -/
def operandText (addr : Word) : Form → String
  | .read _ (.immediate b) => "#" ++ hexByte b
  | .read _ (.memory m) => memText m
  | .store _ m => memText m
  | .modify _ .accumulator => "A"
  | .modify _ (.memory m) => memText m
  | .branch _ rel => hexWord (branchTarget addr rel)
  | .jump m => memText m
  | .call a => hexWord a
  | .implied _ => ""

/-- The assembler text of the instruction at address `addr`: a mnemonic, a space, then an operand (R309; log 10). -/
def asmText (addr : Word) (i : Instr) : String :=
  let text := operandText addr i.form
  if text = "" then mnemonic i.op else mnemonic i.op ++ " " ++ text

/-- The assembler's convention for an operand value below 0x100: the ZeroPage form where the operation has one (R309). -/
def preferZeroPage (o : Op) : MemOperand → MemOperand
  | .absolute a => if page a = 0 && o.modes.contains .zeroPage then .zeroPage (lowByte a) else .absolute a
  | .absoluteX a => if page a = 0 && o.modes.contains .zeroPageX then .zeroPageX (lowByte a) else .absoluteX a
  | .absoluteY a => if page a = 0 && o.modes.contains .zeroPageY then .zeroPageY (lowByte a) else .absoluteY a
  | m => m

end Sys2Proof.Machine
end

