-- ==== Sys2Proof/Machine/AnyBus.lean ====
section
/-! DEFINITION. The core with the Memory Interface as an argument (R7 BUS, R200): the executors by operation, one
`step()` as R400 returns it, and the drive modes (R402, R403). `Machine.step` is this on plain RAM. -/

namespace Sys2Proof.Machine

variable {σ : Type}

/-- The executor of each read operation (R430). -/
def readExecutor : ReadOp → Byte → Cpu σ → Cpu σ
  | .adc => adcOp
  | .sbc => sbcOp
  | .and => andOp
  | .ora => oraOp
  | .eor => eorOp
  | .cmp => cmpOp
  | .cpx => cpxOp
  | .cpy => cpyOp
  | .bit => bitOp
  | .lda => ldaOp
  | .ldx => ldxOp
  | .ldy => ldyOp

/-- The register each write operation stores (R1003 to R1005). -/
def storedRegister : StoreOp → Cpu σ → Byte
  | .sta => (·.a)
  | .stx => (·.x)
  | .sty => (·.y)

/-- The byte function of each read-modify-write operation (R432). -/
def byteFunction : ModifyOp → ByteFunction
  | .asl => aslByte
  | .lsr => lsrByte
  | .rol => rolByte
  | .ror => rorByte
  | .inc => incByte
  | .dec => decByte

/-- The condition of each branch (R701 to R708). -/
def branchCondition : BranchOp → Flags → Bool
  | .bcc => bccCond
  | .bcs => bcsCond
  | .beq => beqCond
  | .bne => bneCond
  | .bmi => bmiCond
  | .bpl => bplCond
  | .bvc => bvcCond
  | .bvs => bvsCond

/-- The executor of each operation whose only mode is Implied. -/
def impliedExecutor (B : Bus σ) : ImpliedOp → Cpu σ → Cpu σ
  | .inx => inxOp
  | .iny => inyOp
  | .dex => dexOp
  | .dey => deyOp
  | .sec => secOp
  | .clc => clcOp
  | .sed => sedOp
  | .cld => cldOp
  | .sei => seiOp
  | .cli => cliOp
  | .clv => clvOp
  | .tax => taxOp
  | .tay => tayOp
  | .txa => txaOp
  | .tya => tyaOp
  | .tsx => tsxOp
  | .txs => txsOp
  | .pha => phaOp B
  | .php => phpOp B
  | .pla => plaOp B
  | .plp => plpOp B
  | .rts => rtsOp B
  | .brk => brkOp B
  | .rti => rtiOp B
  | .nop => nopOp

/-- Resolve and execute an instruction on any BUS, its cycles not yet charged (R400). -/
def executeOn (B : Bus σ) (i : Instr) (c : Cpu σ) : Ran σ :=
  match i.form with
  | .read o src => runRead B i (readExecutor o) src c
  | .store o dst => runStore B i (storedRegister o) dst c
  | .modify o target => runModify B i (byteFunction o) target c
  | .branch o rel => runBranch i (branchCondition o) rel c
  | .jump target => runJump B i target c
  | .call target => runCall B i target c
  | .implied o => runImplied i (impliedExecutor B o) c

/-- What `step()` returns (R400). -/
inductive StepResult where
  | cycles (n : Nat)
  | fault (opcode : Byte) (pc : Word)
  deriving DecidableEq, Repr

/-- `step()` (R400): what it returns, and the state it leaves. -/
def stepOn (B : Bus σ) (c : Cpu σ) : StepResult × Cpu σ :=
  match c.fault with
  | some (opcode, pc) => (.fault opcode pc, c)
  | none =>
    match c.interruptPending with
    | some src => (.cycles Config.interruptCycles, c.takeInterrupt B src)
    | none =>
      match c.fetch B with
      | .invalid opcode c1 => (.fault opcode c1.pc, c1.raiseIllegalOpcode opcode)
      | .instr i c1 => (.cycles (executeOn B i c1).cost, (executeOn B i c1).charged)

/-- What `runUntil` returns: the cycles this call consumed, and the fault that stopped it, if one did (R402). -/
structure RunResult where
  used : Nat
  fault : Option (Byte × Word)
  deriving DecidableEq, Repr

/-- The loop of `runUntil`, for at most `fuel` steps. -/
def runUntilLoop (B : Bus σ) (budget : Nat) : Nat → Nat → Cpu σ → RunResult × Cpu σ
  | 0, used, c => (⟨used, none⟩, c)
  | fuel + 1, used, c =>
    if used < budget then
      match stepOn B c with
      | (.fault opcode pc, c1) => (⟨used, some (opcode, pc)⟩, c1)
      | (.cycles n, c1) => runUntilLoop B budget fuel (used + n) c1
    else (⟨used, none⟩, c)

/-- `runUntil(budget)` (R402). A step that does not fault charges at least 2 cycles, so `budget` steps reach the budget
(I7, log 7). -/
def runUntil (B : Bus σ) (budget : Nat) (c : Cpu σ) : RunResult × Cpu σ := runUntilLoop B budget budget 0 c

/-- How a bounded run ends (R403, R406): the stop predicate held, a fault was returned, or the bound was reached with
neither (the run is still going on). -/
inductive RunEnd where
  | stopped
  | fault (opcode : Byte) (pc : Word)
  | running
  deriving DecidableEq, Repr

/-- `run(stop)` for at most `fuel` steps; `stop` is evaluated before each step (R403, log 7). -/
def runFor (B : Bus σ) (stop : Cpu σ → Bool) : Nat → Cpu σ → RunEnd × Cpu σ
  | 0, c => (if stop c then .stopped else .running, c)
  | fuel + 1, c =>
    if stop c then (.stopped, c)
    else
      match stepOn B c with
      | (.fault opcode pc, c1) => (.fault opcode pc, c1)
      | (.cycles _, c1) => runFor B stop fuel c1

end Sys2Proof.Machine
end

