-- ==== Sys2Proof/Safety.lean ====
section
/-! DEFINITION. The terms that claims about runs use: a safe state, the invariant of the machine, and the states that
an instance can come to. -/

namespace Sys2Proof.Machine

/-- No fault is latched: the program has executed no invalid opcode (R1101). -/
def State.safe (s : State) : Bool := s.fault.isNone

/-- What the fault latch records is the invalid opcode at PC (R1100, R1101). -/
def State.latchAgrees (s : State) : Bool :=
  match s.fault with
  | none => true
  | some (opcode, pc) => pc == s.pc && (descr opcode).isNone && s.peek pc == opcode

/-- The machine's invariant: the memory is canonical, and the fault latch agrees with PC and memory. -/
def State.inv (s : State) : Bool := Memory.wf s.mem && s.latchAgrees

/-- `s` with PC moved past `i` and `n` cycles charged: what running `i` does beside its own effect (R103, R440). -/
def State.past (s : State) (i : Instr) (n : Nat) : State :=
  { s with pc := s.pc + BitVec.ofNat 16 i.length, cycles := s.cycles + n }

/-- The cycles of `i` in a state: its base count, and one more when its row has the `*` and `cross` holds (R440, R441). -/
def baseCost (i : Instr) (cross : Bool) : Nat := i.row.base + if i.row.pageCross && cross then 1 else 0

/-- The flags Z and N as a result gives them, the others kept (R114), in the terms of its value. -/
def Flags.withZN (p : Flags) (r : Byte) : Flags := { p with z := decide (r = 0), n := decide (128 ≤ r.toNat) }

/-- The rows R300 gives an operation, and no others: opcode byte, mode, base cycles and `*`. -/
def Encodes (o : Op) (rows : List (Byte × Mode × Nat × Bool)) : Prop :=
  ∀ (opcode : Byte) (mode : Mode) (base : Nat) (star : Bool),
    descr opcode = some ⟨o, mode, base, star⟩ ↔ (opcode, mode, base, star) ∈ rows

/-- The three bytes at PC, the longest instruction (R302). -/
def State.window (s : State) : List Byte := [s.peek s.pc, s.peek (s.pc + 1), s.peek (s.pc + 2)]

/-- No interrupt is taken at the head of the next step: none is pending, or IRQ is masked (R1110). -/
def State.quiet (s : State) : Prop := s.nmiPending = false ∧ (s.irqLine = false ∨ s.p.i = true)

/-- The address in the stack page that an offset designates, `0x0100 + SP` (R102). -/
def stackSlot (sp : Byte) : Word := BitVec.ofNat 16 (256 + sp.toNat)

/-- A memory with a word pushed at the offset `sp`: the high byte, then the low byte one below it (R222). -/
def Memory.withWordPushed (m : Memory) (sp : Byte) (w : Word) : Memory :=
  Memory.write (Memory.write m (stackSlot sp) (highByte w)) (stackSlot (sp - 1)) (lowByte w)

/-- A read-modify-write operation that replaces a byte `v` by `result v C` and C by `carry v`, sets Z and N from the
result, and changes nothing else, in the accumulator form and in every memory form (R432, R600-R603). -/
def ShiftsTo (o : ModifyOp) (result : Byte → Bool → Nat) (carry : Byte → Bool) : Prop :=
  (∀ (i : Instr) (s : State), i.form = .modify o .accumulator →
    let r : Byte := BitVec.ofNat 8 (result s.a s.p.c)
    exec i s = .next
      { s.past i i.row.base with a := r, p := Flags.withZN { s.p with c := carry s.a } r }) ∧
  (∀ (i : Instr) (m : MemOperand) (s : State), i.form = .modify o (.memory m) →
    let v := s.peek (s.ea m)
    let r : Byte := BitVec.ofNat 8 (result v s.p.c)
    exec i s = .next
      { s.past i i.row.base with
        mem := Memory.write s.mem (s.ea m) r, p := Flags.withZN { s.p with c := carry v } r })

/-- A memory read-modify-write operation that replaces a byte `v` by `result v`, and sets Z and N alone (R604, R605). -/
def StepsMemoryBy (o : ModifyOp) (result : Byte → Byte) : Prop :=
  ∀ (i : Instr) (m : MemOperand) (s : State), i.form = .modify o (.memory m) →
    let r := result (s.peek (s.ea m))
    exec i s = .next
      { s.past i i.row.base with mem := Memory.write s.mem (s.ea m) r, p := Flags.withZN s.p r }

/-- Running one instruction `n` times over, PC moving on as it does. -/
def execTimes (i : Instr) : Nat → State → Result
  | 0, s => .next s
  | n + 1, s =>
    match exec i s with
    | .next t => execTimes i n t
    | .fault r => .fault r
    | .refused r => .refused r

/-- Whether an access is a write, and its address. -/
def Access.shape : Access → Bool × Word
  | .read addr _ => (false, addr)
  | .write addr _ => (true, addr)

/-- The addresses an operand's mode reads its pointer from, in order (R205, R420 to R422). -/
def pointerAddresses {σ : Type} (c : Cpu σ) : MemOperand → List Word
  | .indirect ptr => [ptr, wordOf (highByte ptr) (lowByte ptr + 1)]
  | .indexedIndirectX z => [zext16 (z + c.x), zext16 (z + c.x + 1)]
  | .indirectIndexedY z => [zext16 z, zext16 (z + 1)]
  | _ => []

/-- The stack accesses of the instructions whose only mode is Implied, and BRK's vector reads (files 44 and 45). -/
def impliedAccesses (sp : Byte) : ImpliedOp → List (Bool × Word)
  | .pha => [(true, stackSlot sp)]
  | .php => [(true, stackSlot sp)]
  | .pla => [(false, stackSlot (sp + 1))]
  | .plp => [(false, stackSlot (sp + 1))]
  | .rts => [(false, stackSlot (sp + 1)), (false, stackSlot (sp + 2))]
  | .rti => [(false, stackSlot (sp + 1)), (false, stackSlot (sp + 2)), (false, stackSlot (sp + 3))]
  | .brk =>
    [(true, stackSlot sp), (true, stackSlot (sp - 1)), (true, stackSlot (sp - 2)), (false, 0xFFFE), (false, 0xFFFF)]
  | _ => []

/-- The accesses of one instruction after its bytes are fetched, in order, each with whether it is a write (R209, R240):
the mode's pointer reads, then the executor's. `ea` gives the effective address of an operand. -/
def accessesOf {σ : Type} (c : Cpu σ) (ea : MemOperand → Word) : Form → List (Bool × Word)
  | .read _ (.immediate _) => []
  | .read _ (.memory m) => (pointerAddresses c m).map (false, ·) ++ [(false, ea m)]
  | .store _ m => (pointerAddresses c m).map (false, ·) ++ [(true, ea m)]
  | .modify _ .accumulator => []
  | .modify _ (.memory m) => (pointerAddresses c m).map (false, ·) ++ [(false, ea m), (true, ea m)]
  | .branch _ _ => []
  | .jump m => (pointerAddresses c m).map (false, ·)
  | .call _ => [(true, stackSlot c.sp), (true, stackSlot (c.sp - 1))]
  | .implied o => impliedAccesses c.sp o

/-- An instance on a recording BUS, with the record left out. -/
def Cpu.forget {σ : Type} (c : Cpu (σ × List Access)) : Cpu σ := { c with mem := c.mem.1 }

/-- The state after `n` steps of the core, whatever they return (R400). -/
def stepsOn {σ : Type} (B : Bus σ) : Nat → Cpu σ → Cpu σ
  | 0, c => c
  | n + 1, c => stepsOn B n (stepOn B c).2

/-- The cycles a step returns; a fault returns none (R400). -/
def StepResult.consumed : StepResult → Nat
  | .cycles n => n
  | .fault _ _ => 0

/-- The cycles that `n` steps of the core return together (R402). -/
def cyclesOn {σ : Type} (B : Bus σ) : Nat → Cpu σ → Nat
  | 0, _ => 0
  | n + 1, c => (stepOn B c).1.consumed + cyclesOn B n (stepOn B c).2

/-- The states an instance can come to: by creation with any canonical MEM_INIT, by steps, and by the host's calls
between steps (R405). -/
inductive Reachable : State → Prop where
  | create (memInit : Memory) : Memory.wf memInit = true → Reachable ⟨Cpu.create Bus.ram memInit⟩
  | step (s t : State) : Reachable s → Machine.step s = .next t → Reachable t
  | hostReset (s : State) : Reachable s → Reachable ⟨s.toCpu.hostReset Bus.ram⟩
  | signalNMI (s : State) : Reachable s → Reachable ⟨s.toCpu.signalNMI⟩
  | setIRQ (s : State) (level : Bool) : Reachable s → Reachable ⟨s.toCpu.setIRQ level⟩

end Sys2Proof.Machine
end

