-- ==== Sys2Proof/Certificates/Slice0/Obligations.lean ====
section
/-! DEFINITION. The statements for the provers, from the numbered rules of the spec. -/

open Sys2Proof Sys2Proof.Machine

/-- For every list of bytes, every instruction and every rest: the decoder reads the instruction with that rest
exactly when the bytes are the encoding of the instruction followed by the rest. So the decoder reads back every
operand at every value, and no two byte strings mean one instruction. Rests on the spec's opcode table (decision D3).
(R303, R304, R302) -/
def Obligations.DecodeEncodeAgree : Prop :=
  ∀ (bytes : List Byte) (i : Instr) (rest : List Byte), decode bytes = .instr i rest ↔ bytes = encode i ++ rest

/-- For every opcode byte and whatever follows it, the decoder answers invalid, by that opcode, exactly when the byte
is in the list of R307; the list has 105 bytes. That they trap is the spec's decision D2. (R307, R301) -/
def Obligations.InvalidOpcodesAreTheListed105 : Prop :=
  let listed : List Byte :=
    [0x02, 0x03, 0x04, 0x07, 0x0B, 0x0C, 0x0F, 0x12, 0x13, 0x14, 0x17, 0x1A, 0x1B, 0x1C, 0x1F, 0x22, 0x23,
     0x27, 0x2B, 0x2F, 0x32, 0x33, 0x34, 0x37, 0x3A, 0x3B, 0x3C, 0x3F, 0x42, 0x43, 0x44, 0x47, 0x4B, 0x4F,
     0x52, 0x53, 0x54, 0x57, 0x5A, 0x5B, 0x5C, 0x5F, 0x62, 0x63, 0x64, 0x67, 0x6B, 0x6F, 0x72, 0x73, 0x74,
     0x77, 0x7A, 0x7B, 0x7C, 0x7F, 0x80, 0x82, 0x83, 0x87, 0x89, 0x8B, 0x8F, 0x92, 0x93, 0x97, 0x9B, 0x9C,
     0x9E, 0x9F, 0xA3, 0xA7, 0xAB, 0xAF, 0xB2, 0xB3, 0xB7, 0xBB, 0xBF, 0xC2, 0xC3, 0xC7, 0xCB, 0xCF, 0xD2,
     0xD3, 0xD4, 0xD7, 0xDA, 0xDB, 0xDC, 0xDF, 0xE2, 0xE3, 0xE7, 0xEB, 0xEF, 0xF2, 0xF3, 0xF4, 0xF7, 0xFA,
     0xFB, 0xFC, 0xFF]
  listed.length = 105 ∧
  ∀ (opcode : Byte) (rest : List Byte), decode (opcode :: rest) = .invalid opcode ↔ opcode ∈ listed

/-- The bytes of one instruction of each format, written out from the spec, decode to that instruction: BRK alone is 1
byte, LDA #$84, BNE with offset 0xFB, LDA ($20),Y, LDA $4402,X with its low byte first, JMP ($30FF), and the
accumulator form of ASL. (R303, R304, R308, R309) -/
def Obligations.WrittenOutWordsDecode : Prop :=
  decode [0x00, 0xAA] = .instr .brk [0xAA] ∧
  decode [0xA9, 0x84] = .instr (.ldaImm 0x84) [] ∧
  decode [0xD0, 0xFB] = .instr (.bne 0xFB) [] ∧
  decode [0xB1, 0x20] = .instr (.ldaIndY 0x20) [] ∧
  decode [0xBD, 0x02, 0x44] = .instr (.ldaAbsX 0x4402) [] ∧
  decode [0x6C, 0xFF, 0x30] = .instr (.jmpInd 0x30FF) [] ∧
  decode [0x0A] = .instr .aslAcc []

/-- For every instruction: its encoding has as many bytes as the model's length says, which is 1 plus the operand
bytes of its mode (0 for Implied, 2 for Absolute, AbsoluteX, AbsoluteY and Indirect, 1 for every other mode); and two
instructions with one opcode byte have the same length. (R302) -/
def Obligations.OpcodeAloneFixesTheLength : Prop :=
  (∀ i : Instr, (encode i).length = i.length ∧
    i.length = if i.mode = .implied then 1
      else if i.mode ∈ [Mode.absolute, .absoluteX, .absoluteY, .indirect] then 3 else 2) ∧
  ∀ i j : Instr, i.row.opcode = j.row.opcode → i.length = j.length

/-- For every instruction, the table entry at its opcode is the descriptor with its operation, mode, base cycles and
flag; every valid entry of the table is that of some instruction; and the conditional-extra-cycle flag is true exactly
for read instructions in modes AbsoluteX, AbsoluteY and IndirectIndexedY (the spec's decision D4). (R301, R305, R441)
-/
def Obligations.DispatchTableHasOneRowPerInstruction : Prop :=
  (∀ i : Instr, descr i.row.opcode = some ⟨i.op, i.mode, i.row.base, i.row.pageCross⟩) ∧
  (∀ (opcode : Byte) (d : Descriptor), descr opcode = some d →
    ∃ i : Instr, i.row.opcode = opcode ∧ d = ⟨i.op, i.mode, i.row.base, i.row.pageCross⟩) ∧
  ∀ i : Instr, i.row.pageCross = true ↔
    (∃ o src, i.form = .read o src) ∧ i.mode ∈ [Mode.absoluteX, .absoluteY, .indirectIndexedY]

/-- For every form: the check of WellFormed.lean accepts it exactly when some instruction has it. No two instructions
have the same form. So the typed syntax holds the 151 rows of the table, and no pairing of operation and mode that the
table lacks. (R300, R430) -/
def Obligations.FormsOfInstructionsAreTheWellFormedOnes : Prop :=
  (∀ f : Form, f.wellFormed = true ↔ ∃ i : Instr, i.form = f) ∧
  ∀ i j : Instr, i.form = j.form → i = j

/-- For every instruction the base cycle count of its row in R300 is the number the table of R1220 gives its class and
mode: reads, stores, read-modify-writes, the accumulator forms, branches, JMP, JSR, and each instruction whose only
mode is Implied. The counts rest on the spec's decision D3. (R1220) -/
def Obligations.BaseCyclesByClass : Prop :=
  ∀ i : Instr, i.row.base =
    match i.form with
    | .read _ (.immediate _) => 2
    | .read _ (.memory m) =>
      if m.mode = .zeroPage then 3 else if m.mode = .indexedIndirectX then 6
      else if m.mode = .indirectIndexedY then 5 else 4
    | .store _ m =>
      if m.mode = .zeroPage then 3 else if m.mode ∈ [Mode.absoluteX, .absoluteY] then 5
      else if m.mode ∈ [Mode.indexedIndirectX, .indirectIndexedY] then 6 else 4
    | .modify _ .accumulator => 2
    | .modify _ (.memory m) => if m.mode = .zeroPage then 5 else if m.mode = .absoluteX then 7 else 6
    | .branch _ _ => 2
    | .jump m => if m.mode = .absolute then 3 else 5
    | .call _ => 6
    | .implied o =>
      if o = .brk then 7 else if o ∈ [ImpliedOp.rts, .rti] then 6 else if o ∈ [ImpliedOp.pla, .plp] then 4
      else if o ∈ [ImpliedOp.pha, .php] then 3 else 2

/-- For every state with no fault latched, no NMI pending, and IRQ low or masked: if the three bytes at PC, PC+1 and
PC+2 in memory as it now is decode to the instruction i with any rest, then step s is exec i s. exec itself moves PC
past the bytes of i and charges the cycles (the model's convention, log 4), so step adds nothing. (R400, R401, R404,
R242) -/
def Obligations.StepRunsTheDecodedInstruction : Prop :=
  ∀ (s : State) (i : Instr) (rest : List Byte), s.fault = none → s.quiet →
    decode s.window = .instr i rest → step s = exec i s

/-- With no fault latched and no interrupt to take: if the byte at PC is an invalid opcode, the step leaves every
register, flag, memory byte and the cycle total as they were and latches the opcode with its address. In any state
with a latched fault, step reports that fault and gives no other state. The trap is the spec's decision D2; that the
host sees the latching step as a next state is the model's choice (log 3). (R1100, R1101, R123) -/
def Obligations.InvalidOpcodeLatchesTheFault : Prop :=
  (∀ (s : State) (opcode : Byte), s.fault = none → s.quiet → decode s.window = .invalid opcode →
    opcode = s.peek s.pc ∧ step s = .next { s with fault := some (opcode, s.pc) }) ∧
  ∀ (s : State) (opcode : Byte) (pc : Word), s.fault = some (opcode, pc) →
    step s = .fault (.illegalOpcode opcode pc)

/-- With no fault latched and an NMI pending, the step pushes PC (high byte first) and the status with B = 0 and U =
1, sets I, loads PC from 0xFFFA and 0xFFFB, clears the latch and charges 7 cycles; nothing else changes. It holds
whatever I, the IRQ line and the byte at PC are: NMI goes before IRQ and before an invalid opcode. The spec's
decisions D10, D11 and D12. (R1110, R1111, R1113) -/
def Obligations.PendingNmiIsTaken : Prop :=
  ∀ s : State, s.fault = none → s.nmiPending = true →
    step s = .next
      { s with
        nmiPending := false
        mem := Memory.write (Memory.withWordPushed s.mem s.sp s.pc) (stackSlot (s.sp - 2)) ((s.p.pack &&& 0xEF) ||| 0x20)
        sp := s.sp - 3
        p := { s.p with i := true }
        pc := wordOf (s.peek 0xFFFB) (s.peek 0xFFFA)
        cycles := s.cycles + 7 }

/-- With no fault latched, no NMI pending, the IRQ line high and I clear, the step pushes PC and the status with B = 0
and U = 1, sets I, loads PC from 0xFFFE and 0xFFFF and charges 7 cycles; nothing else changes, the IRQ line included.
The spec's decisions D10, D11 and D12. (R1110, R1111, R1113) -/
def Obligations.UnmaskedIrqIsTaken : Prop :=
  ∀ s : State, s.fault = none → s.nmiPending = false → s.irqLine = true → s.p.i = false →
    step s = .next
      { s with
        mem := Memory.write (Memory.withWordPushed s.mem s.sp s.pc) (stackSlot (s.sp - 2)) ((s.p.pack &&& 0xEF) ||| 0x20)
        sp := s.sp - 3
        p := { s.p with i := true }
        pc := wordOf (s.peek 0xFFFF) (s.peek 0xFFFE)
        cycles := s.cycles + 7 }

/-- For every state with no fault latched, the next state of step is the state that the core with the Memory Interface
as an argument leaves when its BUS is plain RAM; with a fault latched, both report that fault, and the core leaves the
state as it was. The machine's step is not step() of R400 outright: at an invalid opcode R400 returns Fault(opcode,
pc0) from the step that latches, and the machine answers that latched state as a next state and reports the fault from
the next step on; that is the model's choice (log 3). That the machine holds the RAM instance is the model's choice
too (log 2), after the spec's default (D8). (R400, R200) -/
def Obligations.StepIsStepOfTheCoreOnRam : Prop :=
  ∀ s : State,
    (s.fault = none → step s = .next ⟨(stepOn Bus.ram s.toCpu).2⟩) ∧
    ∀ (opcode : Byte) (pc : Word), s.fault = some (opcode, pc) →
      step s = .fault (.illegalOpcode opcode pc) ∧ stepOn Bus.ram s.toCpu = (.fault opcode pc, s.toCpu)

/-- For every state with the invariant, if step answers a next state, that state has it: the memory list has strictly
rising addresses below 65536 and no cell equal to what an unlisted address reads as, and a latched fault names PC, and
the byte there, which is an invalid opcode. The canonical form is the model's (log 1). (R1101, R202, R123) -/
def Obligations.InvariantIsKeptByEveryStep : Prop :=
  ∀ s t : State, s.inv = true → step s = .next t → t.inv = true

/-- State.reset has the invariant and is the state that creation leaves with memory in which nothing is listed.
Creation with any canonical memory has the invariant. From a state with it, reset(), signalNMI() and setIRQ(level)
give states with it. From every state, signalNMI() sets the NMI latch and changes nothing else, so a second call
before a step changes nothing; setIRQ(level) makes the line the level and changes nothing else. The two inputs are the
spec's decision D10. The canonical form of memory, and a reset state whose memory lists nothing, are the model's
choice (log 1); the host's calls as functions between steps are the model's choice (log 5). (R126, R1201, R1200, R122,
R405) -/
def Obligations.InvariantHoldsAtReset : Prop :=
  State.reset.inv = true ∧
  State.reset = ⟨Cpu.create Bus.ram []⟩ ∧
  (∀ memInit : Memory, Memory.wf memInit = true → (⟨Cpu.create Bus.ram memInit⟩ : State).inv = true) ∧
  (∀ s : State, s.inv = true →
    (⟨s.toCpu.hostReset Bus.ram⟩ : State).inv = true ∧ (⟨s.toCpu.signalNMI⟩ : State).inv = true ∧
    ∀ level : Bool, (⟨s.toCpu.setIRQ level⟩ : State).inv = true) ∧
  ∀ s : State,
    (⟨s.toCpu.signalNMI⟩ : State) = { s with nmiPending := true } ∧
    s.toCpu.signalNMI.signalNMI = s.toCpu.signalNMI ∧
    ∀ level : Bool, (⟨s.toCpu.setIRQ level⟩ : State) = { s with irqLine := level }

/-- In every state that creation, steps and host calls can lead to: if no fault is latched there is a next state; if
step reports a fault, that fault names the byte at PC and its address, and the byte is an invalid opcode. In no state
at all does step refuse. Three of its terms are the model's choice: the states reached, by creation with a canonical
MEM_INIT (log 1) and with the host's calls as functions between steps (log 5), and that the step which latches a fault
at an invalid opcode answers a next state (log 3). (R1100, R1101, R1102) -/
def Obligations.ReachableStatesStopOnlyAtAnInvalidOpcode : Prop :=
  (∀ s : State, Reachable s →
    (s.fault = none → ∃ t, step s = .next t) ∧
    ∀ r, step s = .fault r → r = .illegalOpcode (s.peek s.pc) s.pc ∧ descr (s.peek s.pc) = none) ∧
  ∀ (s : State) (r : Refusal), step s ≠ .refused r

/-- For every step that answers a next state, either no fault is latched in it and its cycle total is at least 2 and
at most 7 more, or a fault is latched in it and the total is the same. So the total never decreases. (R121, R440,
R1101) -/
def Obligations.StepChargesTwoToSevenCyclesOrLatches : Prop :=
  ∀ s t : State, step s = .next t →
    (t.fault = none ∧ s.cycles + 2 ≤ t.cycles ∧ t.cycles ≤ s.cycles + 7) ∨
    (t.fault ≠ none ∧ t.cycles = s.cycles)

/-- For every number of steps and every state: if the run answers a next state, the run from the state with any other
stored B and U answers that state with some B and U, everything else (memory and the cycle total included) being
equal; and if the first stops with a fault, so does the second, with the same fault. R112's own inference. (R112,
R111) -/
def Obligations.NoRunObservesTheStoredBreakAndUnused : Prop :=
  ∀ (k : Nat) (s : State) (b u : Bool),
    let s' : State := { s with p := { s.p with b := b, u := u } }
    (∀ t, Host.Core.run Sys2Proof.core k s = .next t → ∃ b' u' : Bool,
      Host.Core.run Sys2Proof.core k s' = .next { (t : State) with p := { (t : State).p with b := b', u := u' } }) ∧
    ∀ r, Host.Core.run Sys2Proof.core k s = .fault r → Host.Core.run Sys2Proof.core k s' = .fault r

/-- For every number of steps, every state and every n: if the run answers a next state, the run from the state with n
more cycles answers that state with n more cycles and everything else equal; and if the first stops with a fault, so
does the second, with the same fault. R442's own inference. (R442, R121) -/
def Obligations.NoRunObservesTheCycleTotal : Prop :=
  ∀ (k : Nat) (s : State) (n : Nat),
    let s' : State := { s with cycles := s.cycles + n }
    (∀ t, Host.Core.run Sys2Proof.core k s = .next t →
      Host.Core.run Sys2Proof.core k s' = .next { (t : State) with cycles := (t : State).cycles + n }) ∧
    ∀ r, Host.Core.run Sys2Proof.core k s = .fault r → Host.Core.run Sys2Proof.core k s' = .fault r

/-- SED sets D and CLD clears it. PLP and RTI write it from bit 3 of the byte they pull. PHP, BRK and interrupt entry
push it as bit 3. For every instruction but PHP and BRK, and any value of D, running it from the state with that D
gives the same state as before but for D; for PHP, BRK and interrupt entry, but for D and bit 3 of the pushed status
byte. That D is bit 3 of the byte is the spec's decision D1 (R110), and the frame of an interrupt entry, with its
status byte at the offset SP - 2, is its decision D12 (R1111); the model follows both as the spec's words (log 11).
BRK's frame is R903's, and that BRK keeps D is the decision D13. (R113, R110, R1111, R903) -/
def Obligations.DecimalFlagAltersNothingButPushes : Prop :=
  (∀ s t : State, exec .sed s = .next t → t.p.d = true) ∧
  (∀ s t : State, exec .cld s = .next t → t.p.d = false) ∧
  (∀ s t : State, exec .plp s = .next t ∨ exec .rti s = .next t →
    t.p.d = (s.peek (stackSlot (s.sp + 1))).getLsbD 3) ∧
  (∀ s t : State, exec .php s = .next t → (t.peek (stackSlot s.sp)).getLsbD 3 = s.p.d) ∧
  (∀ s t : State, exec .brk s = .next t ∨ (step s = .next t ∧ ¬ s.quiet) →
    (t.peek (stackSlot (s.sp - 2))).getLsbD 3 = s.p.d) ∧
  (∀ (i : Instr) (s t : State) (d : Bool), i ≠ .php → i ≠ .brk → exec i s = .next t →
    ∃ d' : Bool, exec i { s with p := { s.p with d := d } } = .next { t with p := { t.p with d := d' } }) ∧
  ∀ (run : State → Result) (slot : Byte) (s t : State) (d : Bool),
    (run = exec .php ∧ slot = s.sp) ∨ (run = exec .brk ∧ slot = s.sp - 2) ∨
      (run = step ∧ ¬ s.quiet ∧ slot = s.sp - 2) →
    run s = .next t →
    ∃ t' : State, run { s with p := { s.p with d := d } } = .next t' ∧
      t' = { t with p := { t.p with d := d }, mem := t'.mem } ∧
      (∀ addr : Word, addr ≠ stackSlot slot → t'.peek addr = t.peek addr) ∧
      ∀ k : Nat, k ≠ 3 → (t'.peek (stackSlot slot)).getLsbD k = (t.peek (stackSlot slot)).getLsbD k

/-- For every instruction and state: if A changes, the instruction is ADC, SBC, AND, ORA, EOR, LDA, TXA, TYA, PLA or
the accumulator form of ASL, LSR, ROL or ROR; if X changes it is LDX, TAX, TSX, INX or DEX; if Y changes it is LDY,
TAY, INY or DEY; if SP changes it is TXS, BRK, JSR, RTS, RTI, PHA, PHP, PLA or PLP. The lists are R101's own
inference. (R101, R102) -/
def Obligations.RegistersAreWrittenOnlyByTheirWriters : Prop :=
  ∀ (i : Instr) (s t : State), exec i s = .next t →
    (t.a ≠ s.a →
      i.op ∈ [Op.read .adc, .read .sbc, .read .and, .read .ora, .read .eor, .read .lda,
        .implied .txa, .implied .tya, .implied .pla] ∨
      ∃ o, o ∈ [ModifyOp.asl, .lsr, .rol, .ror] ∧ i.form = .modify o .accumulator) ∧
    (t.x ≠ s.x → i.op ∈ [Op.read .ldx, .implied .tax, .implied .tsx, .implied .inx, .implied .dex]) ∧
    (t.y ≠ s.y → i.op ∈ [Op.read .ldy, .implied .tay, .implied .iny, .implied .dey]) ∧
    (t.sp ≠ s.sp → i.op ∈ [Op.implied .txs, .implied .brk, .jsr, .implied .rts, .implied .rti, .implied .pha,
      .implied .php, .implied .pla, .implied .plp])

/-- For every instruction and state, each of the eight flags keeps its value unless the instruction stands in that
flag's row of R115. The table is the spec's own inference. (R115) -/
def Obligations.FlagsAreWrittenOnlyByTheirWriters : Prop :=
  ∀ (i : Instr) (s t : State), exec i s = .next t →
    let writersOfZN : List Op := [Op.read .adc, .read .sbc, .read .and, .read .ora, .read .eor, .read .bit, .read .cmp, .read .cpx,
      .read .cpy, .modify .asl, .modify .lsr, .modify .rol, .modify .ror, .modify .inc, .modify .dec, .implied .inx,
      .implied .iny, .implied .dex, .implied .dey, .read .lda, .read .ldx, .read .ldy, .implied .tax, .implied .tay,
      .implied .txa, .implied .tya, .implied .tsx, .implied .pla, .implied .plp, .implied .rti]
    (t.p.c ≠ s.p.c → i.op ∈ [Op.read .adc, .read .sbc, .read .cmp, .read .cpx, .read .cpy, .modify .asl, .modify .lsr,
      .modify .rol, .modify .ror, .implied .sec, .implied .clc, .implied .plp, .implied .rti]) ∧
    (t.p.z ≠ s.p.z → i.op ∈ writersOfZN) ∧
    (t.p.n ≠ s.p.n → i.op ∈ writersOfZN) ∧
    (t.p.i ≠ s.p.i → i.op ∈ [Op.implied .sei, .implied .cli, .implied .plp, .implied .rti, .implied .brk]) ∧
    (t.p.d ≠ s.p.d → i.op ∈ [Op.implied .sed, .implied .cld, .implied .plp, .implied .rti]) ∧
    (t.p.b ≠ s.p.b → i.op ∈ [Op.implied .plp, .implied .rti]) ∧
    (t.p.u ≠ s.p.u → i.op ∈ [Op.implied .plp, .implied .rti]) ∧
    (t.p.v ≠ s.p.v → i.op ∈ [Op.read .adc, .read .sbc, .read .bit, .implied .clv, .implied .plp, .implied .rti])

/-- For every instruction and state: a store and a memory read-modify-write change at most the byte at the effective
address their operand resolves to in that state; JSR the two, BRK the three and PHA and PHP the one stack slots they
push at, from SP down; and every other instruction no byte. Every other address reads as before. (R209, R431, R432,
R220) -/
def Obligations.MemoryChangesOnlyAtTheStoredBytes : Prop :=
  ∀ (i : Instr) (s t : State), exec i s = .next t →
    let stored : List Word :=
      match i.form with
      | .store _ m => [s.ea m]
      | .modify _ (.memory m) => [s.ea m]
      | .call _ => [stackSlot s.sp, stackSlot (s.sp - 1)]
      | .implied .brk => [stackSlot s.sp, stackSlot (s.sp - 1), stackSlot (s.sp - 2)]
      | .implied .pha => [stackSlot s.sp]
      | .implied .php => [stackSlot s.sp]
      | _ => []
    ∀ addr : Word, addr ∉ stored → t.peek addr = s.peek addr

/-- For every instruction and state, running it leaves the NMI latch, the IRQ line and the fault latch as they were.
For every step that answers a next state: the IRQ line is as it was, no NMI is pending afterwards, no fault was
latched before, and if one is latched afterwards it names PC, which did not change. Rests on the spec's decisions D2
and D10. (R122, R123, R1101) -/
def Obligations.InstructionsLeaveTheControlStateAlone : Prop :=
  (∀ (i : Instr) (s t : State), exec i s = .next t →
    t.nmiPending = s.nmiPending ∧ t.irqLine = s.irqLine ∧ t.fault = s.fault) ∧
  ∀ s t : State, step s = .next t →
    t.irqLine = s.irqLine ∧ t.nmiPending = false ∧ s.fault = none ∧
    ∀ (opcode : Byte) (pc : Word), t.fault = some (opcode, pc) → pc = s.pc ∧ t.pc = s.pc

/-- For every instruction but the branches, JMP, JSR, RTS, BRK and RTI: PC is afterwards the address of the
instruction plus its length, modulo 65536. A branch leaves PC there or at that address plus its signed offset. The
wrap is the spec's reading in C2. (R103, R104) -/
def Obligations.PcIsSequentialButForTransfers : Prop :=
  (∀ (i : Instr) (s t : State), exec i s = .next t → (∀ o rel, i.form ≠ .branch o rel) →
    i.op ∉ [Op.jmp, .jsr, .implied .rts, .implied .brk, .implied .rti] →
    t.pc.toNat = (s.pc.toNat + i.length) % 65536) ∧
  ∀ (i : Instr) (o : BranchOp) (rel : Byte) (s t : State), exec i s = .next t → i.form = .branch o rel →
    t.pc.toNat = (s.pc.toNat + 2) % 65536 ∨ (t.pc.toNat : Int) = (s.pc.toNat + 2 + rel.toInt) % 65536

/-- The rows of ADC are those of R501. For every form of ADC with the operand byte m, and of SBC with its one's
complement: the instruction completes with A the sum A + m + C truncated to 8 bits, C set exactly when the sum is over
255, V from the sign formula on the accumulator before the addition, Z and N from the truncated result, and I, D, B, U
and everything else but PC and the cycles unchanged, whatever D holds. (R500, R501) -/
def Obligations.AdcAndSbcUseTheSharedAdder : Prop :=
  Encodes (.read .adc)
    [(0x61, .indexedIndirectX, 6, false), (0x65, .zeroPage, 3, false),
     (0x69, .immediate, 2, false), (0x6D, .absolute, 4, false),
     (0x71, .indirectIndexedY, 5, true), (0x75, .zeroPageX, 4, false),
     (0x79, .absoluteY, 4, true), (0x7D, .absoluteX, 4, true)] ∧
  ∀ (i : Instr) (src : ReadOperand) (m : Byte) (s : State),
    (i.form = .read .adc src ∧ m = s.load src) ∨ (i.form = .read .sbc src ∧ m = ~~~(s.load src)) →
    let sum := s.a.toNat + m.toNat + (if s.p.c then 1 else 0)
    let r : Byte := BitVec.ofNat 8 sum
    exec i s = .next
      { s.past i (baseCost i (s.loadCrosses src)) with
        a := r
        p := Flags.withZN
          { s.p with c := decide (255 < sum), v := decide (((s.a ^^^ r) &&& (m ^^^ r) &&& 0x80) ≠ 0) } r }

/-- The rows of SBC are those of R502. For every form of SBC: A becomes A - m - (1 - C) modulo 256, and C is set
exactly when that difference is not negative. For every form of ADC and of SBC, V is set exactly when the exact signed
result is outside -128..127. R502 and R500 mark these as derived. (R502, R500) -/
def Obligations.SbcBorrowsAndOverflowIsSigned : Prop :=
  Encodes (.read .sbc)
    [(0xE1, .indexedIndirectX, 6, false), (0xE5, .zeroPage, 3, false),
     (0xE9, .immediate, 2, false), (0xED, .absolute, 4, false),
     (0xF1, .indirectIndexedY, 5, true), (0xF5, .zeroPageX, 4, false),
     (0xF9, .absoluteY, 4, true), (0xFD, .absoluteX, 4, true)] ∧
  (∀ (i : Instr) (src : ReadOperand) (s : State), i.form = .read .sbc src →
    let d : Int := (s.a.toNat : Int) - (s.load src).toNat - (1 - if s.p.c then 1 else 0)
    let dSigned : Int := s.a.toInt - (s.load src).toInt - (1 - if s.p.c then 1 else 0)
    ∃ t, exec i s = .next t ∧ (t.a.toNat : Int) = d % 256 ∧ t.p.c = decide (0 ≤ d) ∧
      t.p.v = decide (dSigned < -128 ∨ 127 < dSigned)) ∧
  ∀ (i : Instr) (src : ReadOperand) (s : State), i.form = .read .adc src →
    let sumSigned : Int := s.a.toInt + (s.load src).toInt + (if s.p.c then 1 else 0)
    ∃ t, exec i s = .next t ∧ t.p.v = decide (sumSigned < -128 ∨ 127 < sumSigned)

/-- The rows of CMP, CPX and CPY are those of R504 to R506. For every form: C is set exactly when the register is at
least the operand as an unsigned number, Z when they are equal, N from bit 7 of the 8-bit difference, and every
register, every other flag and memory are unchanged. That V keeps its value is the spec's decision D24. (R503, R504,
R505, R506) -/
def Obligations.ComparesSetCarryZeroNegative : Prop :=
  Encodes (.read .cmp)
    [(0xC1, .indexedIndirectX, 6, false), (0xC5, .zeroPage, 3, false),
     (0xC9, .immediate, 2, false), (0xCD, .absolute, 4, false),
     (0xD1, .indirectIndexedY, 5, true), (0xD5, .zeroPageX, 4, false),
     (0xD9, .absoluteY, 4, true), (0xDD, .absoluteX, 4, true)] ∧
  Encodes (.read .cpx)
    [(0xE0, .immediate, 2, false), (0xE4, .zeroPage, 3, false), (0xEC, .absolute, 4, false)] ∧
  Encodes (.read .cpy)
    [(0xC0, .immediate, 2, false), (0xC4, .zeroPage, 3, false), (0xCC, .absolute, 4, false)] ∧
  ∀ (i : Instr) (src : ReadOperand) (reg : Byte) (s : State),
    (i.form = .read .cmp src ∧ reg = s.a) ∨ (i.form = .read .cpx src ∧ reg = s.x) ∨
      (i.form = .read .cpy src ∧ reg = s.y) →
    let m := s.load src
    exec i s = .next
      { s.past i (baseCost i (s.loadCrosses src)) with
        p := { s.p with
          c := decide (m.toNat ≤ reg.toNat)
          z := decide (m.toNat = reg.toNat)
          n := decide (128 ≤ (reg.toNat + 256 - m.toNat) % 256) } }

/-- The rows of AND, ORA and EOR are those of R1006 to R1008. For every form: A becomes the bitwise AND, OR or
exclusive OR of A and the operand byte, Z and N follow the result, and every other register, flag and memory byte is
unchanged. Their semantics are the spec's decision D25. (R1006, R1007, R1008) -/
def Obligations.LogicCombinesIntoA : Prop :=
  Encodes (.read .and)
    [(0x21, .indexedIndirectX, 6, false), (0x25, .zeroPage, 3, false),
     (0x29, .immediate, 2, false), (0x2D, .absolute, 4, false),
     (0x31, .indirectIndexedY, 5, true), (0x35, .zeroPageX, 4, false),
     (0x39, .absoluteY, 4, true), (0x3D, .absoluteX, 4, true)] ∧
  Encodes (.read .ora)
    [(0x01, .indexedIndirectX, 6, false), (0x05, .zeroPage, 3, false),
     (0x09, .immediate, 2, false), (0x0D, .absolute, 4, false),
     (0x11, .indirectIndexedY, 5, true), (0x15, .zeroPageX, 4, false),
     (0x19, .absoluteY, 4, true), (0x1D, .absoluteX, 4, true)] ∧
  Encodes (.read .eor)
    [(0x41, .indexedIndirectX, 6, false), (0x45, .zeroPage, 3, false),
     (0x49, .immediate, 2, false), (0x4D, .absolute, 4, false),
     (0x51, .indirectIndexedY, 5, true), (0x55, .zeroPageX, 4, false),
     (0x59, .absoluteY, 4, true), (0x5D, .absoluteX, 4, true)] ∧
  ∀ (i : Instr) (src : ReadOperand) (r : Byte) (s : State),
    (i.form = .read .and src ∧ r = s.a &&& s.load src) ∨ (i.form = .read .ora src ∧ r = s.a ||| s.load src) ∨
      (i.form = .read .eor src ∧ r = s.a ^^^ s.load src) →
    exec i s = .next
      { s.past i (baseCost i (s.loadCrosses src)) with a := r, p := s.p.withZN r }

/-- The rows of LDA, LDX and LDY are those of R1000 to R1002. For every form: the register becomes the operand byte, Z
and N follow it, and every other register, flag and memory byte is unchanged. LDA's flags are marked as general
knowledge in R1000 (decision D25). (R1000, R1001, R1002) -/
def Obligations.LoadsWriteTheRegister : Prop :=
  Encodes (.read .lda)
    [(0xA1, .indexedIndirectX, 6, false), (0xA5, .zeroPage, 3, false),
     (0xA9, .immediate, 2, false), (0xAD, .absolute, 4, false),
     (0xB1, .indirectIndexedY, 5, true), (0xB5, .zeroPageX, 4, false),
     (0xB9, .absoluteY, 4, true), (0xBD, .absoluteX, 4, true)] ∧
  Encodes (.read .ldx)
    [(0xA2, .immediate, 2, false), (0xA6, .zeroPage, 3, false), (0xAE, .absolute, 4, false),
     (0xB6, .zeroPageY, 4, false), (0xBE, .absoluteY, 4, true)] ∧
  Encodes (.read .ldy)
    [(0xA0, .immediate, 2, false), (0xA4, .zeroPage, 3, false), (0xAC, .absolute, 4, false),
     (0xB4, .zeroPageX, 4, false), (0xBC, .absoluteX, 4, true)] ∧
  ∀ (i : Instr) (src : ReadOperand) (s : State),
    let m := s.load src
    let t := s.past i (baseCost i (s.loadCrosses src))
    (i.form = .read .lda src → exec i s = .next { t with a := m, p := s.p.withZN m }) ∧
    (i.form = .read .ldx src → exec i s = .next { t with x := m, p := s.p.withZN m }) ∧
    (i.form = .read .ldy src → exec i s = .next { t with y := m, p := s.p.withZN m })

/-- The rows of BIT are those of R710. For both forms: Z is set exactly when A AND m is zero, N is bit 7 and V is bit
6 of the operand byte, and A, every other register and flag, and memory are unchanged. (R710) -/
def Obligations.BitTestsAgainstA : Prop :=
  Encodes (.read .bit)
    [(0x24, .zeroPage, 3, false), (0x2C, .absolute, 4, false)] ∧
  ∀ (i : Instr) (src : ReadOperand) (s : State), i.form = .read .bit src →
    let m := s.load src
    exec i s = .next
      { s.past i i.row.base with
        p := { s.p with
          z := decide (s.a &&& m = 0)
          n := decide (128 ≤ m.toNat)
          v := decide (64 ≤ m.toNat % 128) } }

/-- The rows of STA, STX and STY are those of R1003 to R1005. For every form: the instruction completes with memory
written with the register at the effective address of the operand; that address reads the register afterwards and
every other address as before; and every register but PC, and every flag, is unchanged. The cycles are the base count,
with no penalty (the spec's decision D4). (R1003, R1004, R1005, R431) -/
def Obligations.StoresWriteTheRegisterAtTheAddress : Prop :=
  Encodes (.store .sta)
    [(0x81, .indexedIndirectX, 6, false), (0x85, .zeroPage, 3, false),
     (0x8D, .absolute, 4, false), (0x91, .indirectIndexedY, 6, false),
     (0x95, .zeroPageX, 4, false), (0x99, .absoluteY, 5, false), (0x9D, .absoluteX, 5, false)] ∧
  Encodes (.store .stx)
    [(0x86, .zeroPage, 3, false), (0x8E, .absolute, 4, false), (0x96, .zeroPageY, 4, false)] ∧
  Encodes (.store .sty)
    [(0x84, .zeroPage, 3, false), (0x8C, .absolute, 4, false), (0x94, .zeroPageX, 4, false)] ∧
  ∀ (i : Instr) (m : MemOperand) (v : Byte) (s : State),
    (i.form = .store .sta m ∧ v = s.a) ∨ (i.form = .store .stx m ∧ v = s.x) ∨ (i.form = .store .sty m ∧ v = s.y) →
    ∃ t : State, exec i s = .next t ∧
      t = { s.past i i.row.base with mem := Memory.write s.mem (s.ea m) v } ∧
      ∀ addr : Word, t.peek addr = if addr = s.ea m then v else s.peek addr

/-- The rows are those of R600 to R603 (the derived property of ROL in R602 is another statement's matter). For the
accumulator form and every memory form of each: ASL gives 2v mod 256 with C bit 7; LSR gives v div 2 with C bit 0; ROL
gives 2v mod 256 plus the old carry with C bit 7; ROR gives v div 2 plus 128 times the old carry with C bit 0. Z and N
follow the result; V, I, D, B, U and everything else but PC, the cycles, and A or the byte at the effective address
are unchanged. (R600, R601, R603) -/
def Obligations.ShiftsAndRotatesThroughCarry : Prop :=
  Encodes (.modify .asl)
    [(0x06, .zeroPage, 5, false), (0x0A, .implied, 2, false), (0x0E, .absolute, 6, false),
     (0x16, .zeroPageX, 6, false), (0x1E, .absoluteX, 7, false)] ∧
  Encodes (.modify .lsr)
    [(0x46, .zeroPage, 5, false), (0x4A, .implied, 2, false), (0x4E, .absolute, 6, false),
     (0x56, .zeroPageX, 6, false), (0x5E, .absoluteX, 7, false)] ∧
  Encodes (.modify .rol)
    [(0x26, .zeroPage, 5, false), (0x2A, .implied, 2, false), (0x2E, .absolute, 6, false),
     (0x36, .zeroPageX, 6, false), (0x3E, .absoluteX, 7, false)] ∧
  Encodes (.modify .ror)
    [(0x66, .zeroPage, 5, false), (0x6A, .implied, 2, false), (0x6E, .absolute, 6, false),
     (0x76, .zeroPageX, 6, false), (0x7E, .absoluteX, 7, false)] ∧
  ShiftsTo .asl (fun v _ => v.toNat * 2 % 256) (fun v => decide (128 ≤ v.toNat)) ∧
  ShiftsTo .lsr (fun v _ => v.toNat / 2) (fun v => decide (v.toNat % 2 = 1)) ∧
  ShiftsTo .rol (fun v c => v.toNat * 2 % 256 + if c then 1 else 0) (fun v => decide (128 ≤ v.toNat)) ∧
  ShiftsTo .ror (fun v c => v.toNat / 2 + if c then 128 else 0) (fun v => decide (v.toNat % 2 = 1))

/-- The rows are those of R604 and R605. For every form: the byte at the effective address becomes one more or one
less modulo 256, Z and N follow it, C, V and every other flag keep their values, and everything else but PC and the
cycles is unchanged. The cycles are the base count. (R604, R605) -/
def Obligations.IncAndDecStepMemory : Prop :=
  Encodes (.modify .inc)
    [(0xE6, .zeroPage, 5, false), (0xEE, .absolute, 6, false), (0xF6, .zeroPageX, 6, false),
     (0xFE, .absoluteX, 7, false)] ∧
  Encodes (.modify .dec)
    [(0xC6, .zeroPage, 5, false), (0xCE, .absolute, 6, false), (0xD6, .zeroPageX, 6, false),
     (0xDE, .absoluteX, 7, false)] ∧
  StepsMemoryBy .inc (fun v => BitVec.ofNat 8 (v.toNat + 1)) ∧
  StepsMemoryBy .dec (fun v => BitVec.ofNat 8 (v.toNat + 255))

/-- From every state, running ROL A nine times completes with A and C as they were, and so does ROR A; every other
register, every flag but Z and N, and memory are unchanged, and 18 cycles are charged. R602 marks this property as
derived. (R602, R603) -/
def Obligations.NineRotationsRestoreAccumulatorAndCarry : Prop :=
  ∀ (i : Instr) (s : State), i = .rolAcc ∨ i = .rorAcc →
    ∃ t : State, execTimes i 9 s = .next t ∧ t.a = s.a ∧ t.p = { s.p with z := t.p.z, n := t.p.n } ∧
      t = { s with p := t.p, pc := s.pc + 9, cycles := s.cycles + 18 }

/-- The rows are those of R606 to R609. From every state each completes with its register one more or one less modulo
256, Z and N from it, PC one more, 2 cycles more, and nothing else changed. Their semantics are marked as general
knowledge in the spec (decisions D3 and D25). (R606, R607, R608, R609) -/
def Obligations.IndexRegistersCountModulo256 : Prop :=
  Encodes (.implied .inx) [(0xE8, .implied, 2, false)] ∧
  Encodes (.implied .iny) [(0xC8, .implied, 2, false)] ∧
  Encodes (.implied .dex) [(0xCA, .implied, 2, false)] ∧
  Encodes (.implied .dey) [(0x88, .implied, 2, false)] ∧
  ∀ s : State,
    let xUp : Byte := BitVec.ofNat 8 (s.x.toNat + 1)
    let yUp : Byte := BitVec.ofNat 8 (s.y.toNat + 1)
    let xDown : Byte := BitVec.ofNat 8 (s.x.toNat + 255)
    let yDown : Byte := BitVec.ofNat 8 (s.y.toNat + 255)
    let t : State := { s with pc := s.pc + 1, cycles := s.cycles + 2 }
    exec .inx s = .next { t with x := xUp, p := s.p.withZN xUp } ∧
    exec .iny s = .next { t with y := yUp, p := s.p.withZN yUp } ∧
    exec .dex s = .next { t with x := xDown, p := s.p.withZN xDown } ∧
    exec .dey s = .next { t with y := yDown, p := s.p.withZN yDown }

/-- The rows of the eight branches are those of R701 to R708. For each and every offset byte: taken exactly when its
one flag has its value; the target is the branch address + 2 plus the signed offset, modulo 65536; taken costs 3
cycles, 4 when the target's page is not that of the branch address + 2; not taken goes to the branch address + 2 in 2
cycles. Nothing but PC and the cycles changes, no flag included. (R700, R701, R702, R703, R704, R705, R706, R707,
R708) -/
def Obligations.BranchesTestOneFlag : Prop :=
  Encodes (.branch .bcc) [(0x90, .relative, 2, false)] ∧
  Encodes (.branch .bcs) [(0xB0, .relative, 2, false)] ∧
  Encodes (.branch .beq) [(0xF0, .relative, 2, false)] ∧
  Encodes (.branch .bne) [(0xD0, .relative, 2, false)] ∧
  Encodes (.branch .bmi) [(0x30, .relative, 2, false)] ∧
  Encodes (.branch .bpl) [(0x10, .relative, 2, false)] ∧
  Encodes (.branch .bvc) [(0x50, .relative, 2, false)] ∧
  Encodes (.branch .bvs) [(0x70, .relative, 2, false)] ∧
  ∀ (i : Instr) (o : BranchOp) (rel : Byte) (s : State), i.form = .branch o rel →
    let taken : Bool :=
      match o with
      | .bcc => s.p.c == false
      | .bcs => s.p.c == true
      | .beq => s.p.z == true
      | .bne => s.p.z == false
      | .bmi => s.p.n == true
      | .bpl => s.p.n == false
      | .bvc => s.p.v == false
      | .bvs => s.p.v == true
    let next : Word := s.pc + 2
    let target : Word := BitVec.ofInt 16 (next.toNat + rel.toInt)
    exec i s = .next
      (if taken then
        { s with pc := target, cycles := s.cycles + if target.toNat / 256 = next.toNat / 256 then 3 else 4 }
      else { s with pc := next, cycles := s.cycles + 2 })

/-- The rows are those of R720 to R723 and R726 (the corner cases of R722 and R726 are other statements' matter). From
every state each completes with its flag set or cleared, PC one more, 2 cycles more, and nothing else changed. (R720,
R721, R723) -/
def Obligations.FlagInstructionsSetOrClearOneFlag : Prop :=
  Encodes (.implied .sec) [(0x38, .implied, 2, false)] ∧
  Encodes (.implied .clc) [(0x18, .implied, 2, false)] ∧
  Encodes (.implied .sed) [(0xF8, .implied, 2, false)] ∧
  Encodes (.implied .cld) [(0xD8, .implied, 2, false)] ∧
  Encodes (.implied .clv) [(0xB8, .implied, 2, false)] ∧
  ∀ s : State,
    let t : State := { s with pc := s.pc + 1, cycles := s.cycles + 2 }
    exec .sec s = .next { t with p := { s.p with c := true } } ∧
    exec .clc s = .next { t with p := { s.p with c := false } } ∧
    exec .sed s = .next { t with p := { s.p with d := true } } ∧
    exec .cld s = .next { t with p := { s.p with d := false } } ∧
    exec .clv s = .next { t with p := { s.p with v := false } }

/-- The rows are those of R724 and R725. From every state SEI completes with I set and CLI with I clear, PC one more,
2 cycles more, nothing else changed. After SEI no IRQ is taken at the next step; after CLI an IRQ whose line is high
is, unless an NMI goes first; an NMI is taken after either. The immediate effect is the spec's decision D18. (R724,
R725, R1211, R1110) -/
def Obligations.InterruptMaskActsFromTheNextStep : Prop :=
  Encodes (.implied .sei) [(0x78, .implied, 2, false)] ∧
  Encodes (.implied .cli) [(0x58, .implied, 2, false)] ∧
  ∀ s : State, ∃ t u : State,
    exec .sei s = .next t ∧ exec .cli s = .next u ∧
    t = { s with pc := s.pc + 1, cycles := s.cycles + 2, p := { s.p with i := true } } ∧
    u = { s with pc := s.pc + 1, cycles := s.cycles + 2, p := { s.p with i := false } } ∧
    (s.nmiPending = false → t.toCpu.interruptPending = none) ∧
    (s.nmiPending = false → s.irqLine = true → u.toCpu.interruptPending = some .irq) ∧
    (s.nmiPending = true → t.toCpu.interruptPending = some .nmi ∧ u.toCpu.interruptPending = some .nmi)

/-- The rows are those of R800 to R805. From every state each completes with the destination equal to the source, Z
and N from it but for TXS, PC one more, 2 cycles more, and nothing else changed. After TXS with X = 0, PHA stores A at
0x0100 and leaves SP = 0xFF. (R800, R801, R802, R803, R804, R805) -/
def Obligations.TransfersCopyTheSource : Prop :=
  Encodes (.implied .tax) [(0xAA, .implied, 2, false)] ∧
  Encodes (.implied .tay) [(0xA8, .implied, 2, false)] ∧
  Encodes (.implied .txa) [(0x8A, .implied, 2, false)] ∧
  Encodes (.implied .tya) [(0x98, .implied, 2, false)] ∧
  Encodes (.implied .tsx) [(0xBA, .implied, 2, false)] ∧
  Encodes (.implied .txs) [(0x9A, .implied, 2, false)] ∧
  ∀ s : State,
    let t : State := { s with pc := s.pc + 1, cycles := s.cycles + 2 }
    exec .tax s = .next { t with x := s.a, p := s.p.withZN s.a } ∧
    exec .tay s = .next { t with y := s.a, p := s.p.withZN s.a } ∧
    exec .txa s = .next { t with a := s.x, p := s.p.withZN s.x } ∧
    exec .tya s = .next { t with a := s.y, p := s.p.withZN s.y } ∧
    exec .tsx s = .next { t with x := s.sp, p := s.p.withZN s.sp } ∧
    exec .txs s = .next { t with sp := s.x } ∧
    (s.x = 0 → ∃ v u : State, exec .txs s = .next v ∧ exec .pha v = .next u ∧ u.sp = 0xFF ∧ u.peek 0x0100 = s.a)

/-- The rows are those of R810 and R811. From every state each completes with its byte at 0x0100 + SP (A, or the
packed P OR 0x30), SP one less modulo 256, PC one more, 3 cycles more, and nothing else changed. (R810, R811) -/
def Obligations.PushInstructionsStoreBelow : Prop :=
  Encodes (.implied .pha) [(0x48, .implied, 3, false)] ∧
  Encodes (.implied .php) [(0x08, .implied, 3, false)] ∧
  ∀ s : State,
    let t : State := { s with pc := s.pc + 1, cycles := s.cycles + 3, sp := s.sp - 1 }
    exec .pha s = .next { t with mem := Memory.write s.mem (stackSlot s.sp) s.a } ∧
    exec .php s = .next { t with mem := Memory.write s.mem (stackSlot s.sp) (s.p.pack ||| 0x30) }

/-- The rows are those of R812 and R813. From every state each completes with SP one more modulo 256, the byte at
0x0100 + the new SP in A with Z and N from it, or in the eight flags bit by bit, PC one more, 4 cycles more, and
nothing else changed. PLA's flags are marked as general knowledge in R812 (decision D25); the new I counts from the
next step (D18). (R812, R813) -/
def Obligations.PullInstructionsLoadFromAbove : Prop :=
  Encodes (.implied .pla) [(0x68, .implied, 4, false)] ∧
  Encodes (.implied .plp) [(0x28, .implied, 4, false)] ∧
  ∀ s : State,
    let v := s.peek (stackSlot (s.sp + 1))
    let t : State := { s with pc := s.pc + 1, cycles := s.cycles + 4, sp := s.sp + 1 }
    exec .pla s = .next { t with a := v, p := s.p.withZN v } ∧
    ∃ p : Flags, exec .plp s = .next { t with p := p } ∧ p.pack = v

/-- The rows of JMP are those of R900. From every state JMP a completes with PC = a and 3 cycles more; JMP (p) with PC
the word whose low byte is at p and whose high byte is at the next address within p's own page, and 5 cycles more.
Nothing else changes. JMP is the only instruction of mode Indirect. (R900, R420) -/
def Obligations.JumpsGoToTheResolvedAddress : Prop :=
  Encodes .jmp
    [(0x4C, .absolute, 3, false), (0x6C, .indirect, 5, false)] ∧
  (∀ (s : State) (a p : Word),
    exec (.jmpAbs a) s = .next { s with pc := a, cycles := s.cycles + 3 } ∧
    exec (.jmpInd p) s = .next
      { s with
        pc := wordOf (s.peek (BitVec.ofNat 16 (p.toNat / 256 * 256 + (p.toNat + 1) % 256))) (s.peek p)
        cycles := s.cycles + 5 }) ∧
  ∀ i : Instr, i.mode = .indirect → ∃ p : Word, i = .jmpInd p

/-- The row of JSR is that of R901. From every state JSR a completes with the two bytes of the JSR address + 2 pushed,
SP two less modulo 256, PC = a and 6 cycles more, and nothing else changed. That both operand bytes are fetched before
the push is the spec's decision D7. (R901) -/
def Obligations.JsrPushesItsLastByteAddress : Prop :=
  Encodes .jsr [(0x20, .absolute, 6, false)] ∧
  ∀ (s : State) (a : Word),
    exec (.jsr a) s = .next
      { s with
        mem := Memory.withWordPushed s.mem s.sp (s.pc + 2), sp := s.sp - 2, pc := a, cycles := s.cycles + 6 }

/-- The row of RTS is that of R902. From every state RTS completes with PC one more (modulo 65536) than the word whose
low byte is at 0x0100 + (SP + 1) and whose high byte is at 0x0100 + (SP + 2), SP two more modulo 256, 6 cycles more,
and nothing else changed. PopWord does the same pulls on any BUS. Right after a JSR it returns to the JSR address + 3
with SP as before the JSR. (R902, R223) -/
def Obligations.RtsReturnsPastThePulledWord : Prop :=
  Encodes (.implied .rts) [(0x60, .implied, 6, false)] ∧
  (∀ s : State,
    exec .rts s = .next
      { s with
        pc := wordOf (s.peek (stackSlot (s.sp + 2))) (s.peek (stackSlot (s.sp + 1))) + 1
        sp := s.sp + 2
        cycles := s.cycles + 6 }) ∧
  (∀ (σ : Type) (B : Bus σ) (c : Cpu σ),
    let lo := c.pop B
    let hi := lo.2.pop B
    c.popWord B = (wordOf hi.1 lo.1, hi.2)) ∧
  ∀ (s t : State) (a : Word), exec (.jsr a) s = .next t →
    exec .rts t = .next { t with pc := s.pc + 3, sp := s.sp, cycles := t.cycles + 6 }

/-- The row of BRK is that of R903. From every state, whatever I is, BRK completes with the word BRK address + 2
pushed, high byte first, then the packed P from before it OR 0x30; SP three less; I set, the other flags kept; PC the
word at 0xFFFE and 0xFFFF; 7 cycles more; and nothing else changed. The padding byte and the kept D, B and U are the
spec's decision D13. (R903, R1114) -/
def Obligations.BrkEntersTheHandler : Prop :=
  Encodes (.implied .brk) [(0x00, .implied, 7, false)] ∧
  ∀ s : State,
    exec .brk s = .next
      { s with
        mem := Memory.write (Memory.withWordPushed s.mem s.sp (s.pc + 2)) (stackSlot (s.sp - 2)) (s.p.pack ||| 0x30)
        sp := s.sp - 3
        p := { s.p with i := true }
        pc := wordOf (s.peek 0xFFFF) (s.peek 0xFFFE)
        cycles := s.cycles + 7 }

/-- The row of RTI is that of R904. From every state RTI completes with the eight flags from the first byte pulled, PC
from the next two, low byte first, SP three more, 6 cycles more, and nothing else changed. Right after a BRK it
resumes at the BRK address + 2 with SP as before and the flags as before but B = U = 1; right after an interrupt step,
at the interrupted PC with the flags as before but B = 0 and U = 1 (the spec's decisions D12 and D13). (R904, R1114,
R903, R1111) -/
def Obligations.RtiReturnsFromTheHandler : Prop :=
  Encodes (.implied .rti) [(0x40, .implied, 6, false)] ∧
  (∀ s : State, ∃ p : Flags, p.pack = s.peek (stackSlot (s.sp + 1)) ∧
    exec .rti s = .next
      { s with
        p := p
        pc := wordOf (s.peek (stackSlot (s.sp + 3))) (s.peek (stackSlot (s.sp + 2)))
        sp := s.sp + 3
        cycles := s.cycles + 6 }) ∧
  (∀ s t : State, exec .brk s = .next t →
    exec .rti t = .next
      { t with pc := s.pc + 2, sp := s.sp, p := { s.p with b := true, u := true }, cycles := t.cycles + 6 }) ∧
  ∀ s t : State, step s = .next t → ¬ s.quiet →
    exec .rti t = .next
      { t with pc := s.pc, sp := s.sp, p := { s.p with b := false, u := true }, cycles := t.cycles + 6 }

/-- The row of NOP is that of R905. From every state NOP completes with PC one more modulo 65536 and 2 cycles more,
and nothing else changed. No other instruction leaves every state so. (R905) -/
def Obligations.NopOnlyAdvances : Prop :=
  Encodes (.implied .nop) [(0xEA, .implied, 2, false)] ∧
  (∀ s : State, exec .nop s = .next { s with pc := s.pc + 1, cycles := s.cycles + 2 }) ∧
  ∀ i : Instr, (∀ s : State, exec i s = .next { s with pc := s.pc + 1, cycles := s.cycles + 2 }) → i = .nop

/-- From every state, PHP and then PLP complete with SP and every flag but B and U as before, and B = U = 1. The
packing and unpacking of P are inverse, and bit k of the packed byte is the flag that R110 puts there (the spec's
decision D1). (R811, R813, R110) -/
def Obligations.StatusPushThenPullForcesBreakUnused : Prop :=
  (∀ s t : State, exec .php s = .next t →
    exec .plp t = .next
      { t with pc := s.pc + 2, sp := s.sp, p := { s.p with b := true, u := true }, cycles := t.cycles + 4 }) ∧
  (∀ p : Flags, Flags.unpack p.pack = p) ∧
  (∀ b : Byte, (Flags.unpack b).pack = b) ∧
  ∀ p : Flags, p.pack.toNat =
    p.c.toNat + 2 * p.z.toNat + 4 * p.i.toNat + 8 * p.d.toNat + 16 * p.b.toNat + 32 * p.u.toNat + 64 * p.v.toNat +
    128 * p.n.toNat

/-- For every state: ZeroPage is the byte itself; ZeroPageX and ZeroPageY add the index modulo 256 and never leave
page zero; Absolute is the word; AbsoluteX and AbsoluteY add the index modulo 65536, and cross exactly when the pages
of base and sum differ; the first four never cross. Only LDX and STX have mode ZeroPageY. That resolving these changes
nothing, on any BUS, is the model's choice (log 4): Resolve of R414 to R419 does Fetch8 or Fetch16 itself, which reads
the BUS and moves PC, while the model's locate takes operand bytes that the fetch has read, and the meaning moves PC.
(R414, R415, R416, R417, R418, R419) -/
def Obligations.DirectAndIndexedModesResolve : Prop :=
  (∀ (s : State) (z : Byte) (a : Word),
    ((s.ea (.zeroPage z)).toNat = z.toNat ∧ s.crosses (.zeroPage z) = false) ∧
    ((s.ea (.zeroPageX z)).toNat = (z.toNat + s.x.toNat) % 256 ∧ s.crosses (.zeroPageX z) = false) ∧
    ((s.ea (.zeroPageY z)).toNat = (z.toNat + s.y.toNat) % 256 ∧ s.crosses (.zeroPageY z) = false) ∧
    (s.ea (.absolute a) = a ∧ s.crosses (.absolute a) = false) ∧
    ((s.ea (.absoluteX a)).toNat = (a.toNat + s.x.toNat) % 65536 ∧
      s.crosses (.absoluteX a) = decide (a.toNat / 256 ≠ (a.toNat + s.x.toNat) % 65536 / 256)) ∧
    ((s.ea (.absoluteY a)).toNat = (a.toNat + s.y.toNat) % 65536 ∧
      s.crosses (.absoluteY a) = decide (a.toNat / 256 ≠ (a.toNat + s.y.toNat) % 65536 / 256))) ∧
  (∀ (σ : Type) (B : Bus σ) (c : Cpu σ) (m : MemOperand),
    m.mode ∈ [Mode.zeroPage, .zeroPageX, .zeroPageY, .absolute, .absoluteX, .absoluteY] → (locate B c m).cpu = c) ∧
  ∀ i : Instr, i.mode = .zeroPageY → ∃ z : Byte, i = .ldxZpY z ∨ i = .stxZpY z

/-- For every state: Indirect takes its low byte at the pointer and its high byte at the next address in the pointer's
page; (zp,X) takes both bytes in page zero from (z + X) mod 256 and the next address mod 256, and never crosses;
(zp),Y takes its base in page zero from z and (z + 1) mod 256, adds Y modulo 65536, and crosses exactly when the pages
differ. The zero-page wrap of the pointer is the spec's decision D5. (R420, R421, R422, R205) -/
def Obligations.PointerModesResolveThroughMemory : Prop :=
  ∀ (s : State) (z : Byte) (p : Word),
    let zp (n : Nat) : Nat := (s.peek (BitVec.ofNat 16 (n % 256))).toNat
    let base := zp z.toNat + 256 * zp (z.toNat + 1)
    ((s.ea (.indirect p)).toNat =
        (s.peek p).toNat + 256 * (s.peek (BitVec.ofNat 16 (p.toNat / 256 * 256 + (p.toNat + 1) % 256))).toNat ∧
      s.crosses (.indirect p) = false) ∧
    ((s.ea (.indexedIndirectX z)).toNat = zp (z.toNat + s.x.toNat) + 256 * zp (z.toNat + s.x.toNat + 1) ∧
      s.crosses (.indexedIndirectX z) = false) ∧
    ((s.ea (.indirectIndexedY z)).toNat = (base + s.y.toNat) % 65536 ∧
      s.crosses (.indirectIndexedY z) = decide (base / 256 ≠ (base + s.y.toNat) % 65536 / 256))

/-- On any BUS and state: Push(v) writes v at 0x0100 + SP and then decrements SP modulo 256; Pop increments SP modulo
256 and then reads at 0x0100 + SP; PushWord pushes the high byte and then the low byte; PopWord pops the low byte and
then the high byte. So 0x00 wraps to 0xFF and 0xFF to 0x00. The address is from 0x0100 to 0x01FF for every SP. (R220,
R221, R222, R223) -/
def Obligations.StackPrimitivesStayInTheirPage : Prop :=
  (∀ (σ : Type) (B : Bus σ) (c : Cpu σ) (v : Byte) (w : Word),
    c.push B v = { c with mem := B.writeByte c.mem (stackSlot c.sp) v, sp := BitVec.ofNat 8 (c.sp.toNat + 255) } ∧
    c.pop B =
      (let sp : Byte := BitVec.ofNat 8 (c.sp.toNat + 1)
       ((B.readByte c.mem (stackSlot sp)).1, { c with sp := sp, mem := (B.readByte c.mem (stackSlot sp)).2 })) ∧
    c.pushWord B w = (c.push B (BitVec.ofNat 8 (w.toNat / 256))).push B (BitVec.ofNat 8 (w.toNat % 256)) ∧
    ((c.popWord B).2 = ((c.pop B).2.pop B).2 ∧
      (c.popWord B).1.toNat = 256 * ((c.pop B).2.pop B).1.toNat + (c.pop B).1.toNat)) ∧
  ∀ sp : Byte, (stackSlot sp).toNat = 0x0100 + sp.toNat ∧ (stackSlot sp).toNat ≤ 0x01FF

/-- For every memory and every sequence of writes, reading an address returns the byte of the last write of the
sequence to it, or what it read before if there was none. A word read is the byte at the address and 256 times the
byte at the next address modulo 65536. The other two clauses are about the canonical list, which is the model's choice
(log 1) and of which the rules say nothing: the form is kept by the whole sequence, and two canonical memories that
read the same at every address are the same list. (R240, R200, R203) -/
def Obligations.RamReadsTheLatestWrite : Prop :=
  (∀ (m : Memory) (writes : List (Word × Byte)) (addr : Word),
    let after := writes.foldl (fun acc w => Memory.write acc w.1 w.2) m
    Memory.read after addr =
      (match writes.reverse.find? (fun w => w.1 == addr) with
        | some w => w.2
        | none => Memory.read m addr) ∧
    (Memory.wf m = true → Memory.wf after = true)) ∧
  (∀ m m' : Memory, Memory.wf m = true → Memory.wf m' = true →
    (∀ addr : Word, Memory.read m addr = Memory.read m' addr) → m = m') ∧
  ∀ (m : Memory) (addr : Word), (Memory.readWord m addr).toNat =
    (Memory.read m addr).toNat + 256 * (Memory.read m (BitVec.ofNat 16 ((addr.toNat + 1) % 65536))).toNat

/-- For every BUS, instruction and state: after the fetch, the accesses are the pointer reads of the mode, then one
read for a read instruction, one write and no read of the target for a store, one read and then one write for a
read-modify-write, none for a branch, none at the target for JMP; JSR, RTS, BRK, RTI and the stack instructions make
their stack accesses, and BRK its two vector reads; the others none. The single write and the absence of dummy
accesses are the spec's decision D6. (R209, R430, R431, R432, R433, R240) -/
def Obligations.InstructionsMakeExactlyTheirAccesses : Prop :=
  ∀ (σ : Type) (B : Bus σ) (i : Instr) (c : Cpu (σ × List Access)), c.mem.2 = [] →
    (executeOn B.recording i c).cpu.mem.2.map Access.shape =
      accessesOf c (fun m => (locate B.recording c m).ea) i.form

/-- For every BUS and state: a fetch that finds an instruction has read exactly its bytes, the opcode first, at
addresses PC, PC + 1, ... modulo 65536, as many as its length, so the byte after BRK is not read; one that finds an
invalid opcode has read the opcode alone. The bytes read are the encoding of the instruction found. That a fetch
changes nothing but the interface is the model's choice (log 4): Fetch8 of R404 moves PC past each byte, while the
model's fetch leaves PC at the opcode and the meaning moves it past the instruction once. (R404, R303, R1101, R308) -/
def Obligations.FetchReadsTheInstructionBytesOnce : Prop :=
  ∀ (σ : Type) (B : Bus σ) (c : Cpu (σ × List Access)), c.mem.2 = [] →
    match c.fetch B.recording with
    | .instr i c1 =>
      c1.mem.2.map Access.shape = (List.range i.length).map (fun k => (false, c.pc + BitVec.ofNat 16 k)) ∧
      c1.mem.2 = (List.range i.length).zipWith (fun k v => .read (c.pc + BitVec.ofNat 16 k) v) (encode i) ∧
      c1 = { c with mem := c1.mem }
    | .invalid opcode c1 =>
      c1.mem.2 = [.read c.pc opcode] ∧ descr opcode = none ∧ c1 = { c with mem := c1.mem }

/-- For every BUS and state: step() on the recording BUS returns what it returns on the BUS itself, and leaves the
same state once the record is left out. So what the recording BUS shows is what the core does on any BUS. (R200, R209)
-/
def Obligations.RecordingChangesNothing : Prop :=
  ∀ (σ : Type) (B : Bus σ) (c : Cpu (σ × List Access)),
    (stepOn B.recording c).1 = (stepOn B c.forget).1 ∧
    (stepOn B.recording c).2.forget = (stepOn B c.forget).2

/-- From every state, also a faulted one: A = X = Y = 0, SP = 0xFD, P has I and U set alone, no NMI is pending, no
fault is latched, PC is the word at 0xFFFC and 0xFFFD; the cycle total, the IRQ line and memory are kept. A second
reset changes nothing. On any BUS its accesses are the two vector reads, the low byte first. That the cycles are kept
is the spec's decision D14. (R1200, R1202, R126) -/
def Obligations.HostResetWritesConstantsAndTheVector : Prop :=
  (∀ s : State,
    let t : State := ⟨s.toCpu.hostReset Bus.ram⟩
    t = { s with
      a := 0, x := 0, y := 0, sp := 0xFD
      p := { c := false, z := false, i := true, d := false, b := false, u := true, v := false, n := false }
      nmiPending := false, fault := none, pc := wordOf (s.peek 0xFFFD) (s.peek 0xFFFC) } ∧
    (⟨t.toCpu.hostReset Bus.ram⟩ : State) = t) ∧
  ∀ (σ : Type) (B : Bus σ) (c : Cpu (σ × List Access)), c.mem.2 = [] →
    (c.hostReset B.recording).mem.2.map Access.shape = [(false, 0xFFFC), (false, 0xFFFD)]

/-- On any BUS, from any state, with any budget, there is a number n of steps such that runUntil leaves the state
after n steps of stepOn and says that it used the cycles those steps returned, which is what the cycle total grew by.
Before each of the n steps the cycles used so far are below the budget, and each of them but the last returned cycles.
If runUntil returns no fault, the cycles used meet the budget, the last step too returned cycles, and the cycles used
exceed the budget by less than that step's. If it returns a fault, the last step returned that fault, and it is
latched in the state left. The cycles used are always less than the budget plus 7, and with budget 0 no step is made.
That the model's bound of budget steps is enough is what this says (log 7); the per-call budget is the spec's decision
D16. (R402, R400, R401) -/
def Obligations.RunUntilMeetsItsBudget : Prop :=
  ∀ (σ : Type) (B : Bus σ) (budget : Nat) (c : Cpu σ),
    let r := runUntil B budget c
    (∃ n : Nat,
      r.2 = stepsOn B n c ∧
      r.1.used = cyclesOn B n c ∧
      (∀ k, k < n → cyclesOn B k c < budget) ∧
      (∀ k, k + 1 < n → ∃ m, (stepOn B (stepsOn B k c)).1 = .cycles m) ∧
      match r.1.fault with
      | none =>
        budget ≤ r.1.used ∧
        ∀ k, k + 1 = n → ∃ m, (stepOn B (stepsOn B k c)).1 = .cycles m ∧ r.1.used < budget + m
      | some (opcode, pc) => ∃ k, k + 1 = n ∧ (stepOn B (stepsOn B k c)).1 = .fault opcode pc) ∧
    r.1.used < budget + 7 ∧
    r.2.cycles = c.cycles + r.1.used ∧
    (∀ f, r.1.fault = some f → r.2.fault = some f) ∧
    (budget = 0 → r = (⟨0, none⟩, c))

/-- On any BUS, for any predicate, bound and state, there is a number n of steps, at most the bound, such that the run
leaves the state after n steps of stepOn, the predicate is false at each of the n states stepped from, and each step
but the last returned cycles. If the run ends as stopped, the predicate is true at the state it leaves, and the last
step returned cycles; if it ends with a fault, the last step returned that fault, and it is latched in the state left;
if it ends as running, n is the bound, the predicate is false at the state it leaves, and the last step returned
cycles. A longer bound does not change an end that is not running. The bound is the model's choice (log 7); the
predicate is evaluated before each step by R403 and the spec's decision D17. (R403, R406, R400) -/
def Obligations.RunForEndsAsItSays : Prop :=
  ∀ (σ : Type) (B : Bus σ) (stop : Cpu σ → Bool) (fuel : Nat) (c : Cpu σ),
    let r := runFor B stop fuel c
    (∃ n : Nat,
      n ≤ fuel ∧
      r.2 = stepsOn B n c ∧
      (∀ k, k < n → stop (stepsOn B k c) = false) ∧
      (∀ k, k + 1 < n → ∃ m, (stepOn B (stepsOn B k c)).1 = .cycles m) ∧
      match r.1 with
      | .stopped => stop r.2 = true ∧ ∀ k, k + 1 = n → ∃ m, (stepOn B (stepsOn B k c)).1 = .cycles m
      | .fault opcode pc =>
        (∃ k, k + 1 = n ∧ (stepOn B (stepsOn B k c)).1 = .fault opcode pc) ∧ r.2.fault = some (opcode, pc)
      | .running =>
        n = fuel ∧ stop r.2 = false ∧ ∀ k, k + 1 = n → ∃ m, (stepOn B (stepsOn B k c)).1 = .cycles m) ∧
    (r.1 ≠ .running → ∀ more : Nat, runFor B stop (fuel + more) c = r)

/-- For every branch address, target and offset byte: the assembler gives the offset byte exactly when its signed
value is the target minus the branch address + 2, and exactly when the branch at that address with that byte is
written with the target. For every one of the eight branches, every offset byte and every state in which its condition
holds, it completes and PC is the target it is written with. That branchOffset takes the difference modulo 65536, as
R700 forms the target, is the model's choice (log 10). (R309, R700) -/
def Obligations.BranchOffsetsAreTargetMinusNext : Prop :=
  (∀ (addr target : Word) (rel : Byte),
    (branchOffset addr target = some rel ↔ rel.toInt = (target - (addr + 2)).toInt) ∧
    (branchOffset addr target = some rel ↔ branchTarget addr rel = target)) ∧
  ∀ (i : Instr) (o : BranchOp) (rel : Byte) (s : State),
    i.form = .branch o rel → branchCondition o s.p = true →
      ∃ t, exec i s = .next t ∧ t.pc = branchTarget s.pc rel
end

