-- ==== Sys2Proof/Laws/Decode.lean ====
section
/-! SUPPORT. The laws of the decoder and of the encoder's operand bytes. -/

namespace Sys2Proof

theorem decode_implied {opcode : Byte} {i : Instr} {base : Nat} {star : Bool}
    (h : cellAt opcode = .implied i base star) (rest : List Byte) : decode (opcode :: rest) = .instr i rest := by
  simp only [decode, h]

theorem decode_oneByte {opcode : Byte} {make : Byte → Instr} {base : Nat} {star : Bool}
    (h : cellAt opcode = .oneByte make base star) (b : Byte) (rest : List Byte) :
    decode (opcode :: b :: rest) = .instr (make b) rest := by
  simp only [decode, h]

/-- A 3-byte instruction is read back from its opcode and the two bytes of its word, the low byte first (R303). -/
theorem decode_twoBytes {opcode : Byte} {make : Word → Instr} {base : Nat} {star : Bool}
    (h : cellAt opcode = .twoBytes make base star) (w : Word) (rest : List Byte) :
    decode (opcode :: Machine.lowByte w :: Machine.highByte w :: rest) = .instr (make w) rest := by
  simp [decode, h]

/-- The operand bytes of an instruction are as many as its mode has (R302). -/
theorem length_memBytes (m : MemOperand) : m.bytes.length = m.mode.operandBytes := by cases m <;> rfl

theorem length_formBytes (f : Form) : f.bytes.length = f.mode.operandBytes := by
  unfold Form.bytes Form.mode
  split <;> first | rfl | exact length_memBytes _

end Sys2Proof
end

