-- ==== Sys2Proof/Laws/Cells.lean ====
section
/-! SUPPORT. Every cell of the opcode map agrees with the encoding tables: what it stands for is encoded with the cell's
own opcode byte, and has the cell's cycles and flag. -/

namespace Sys2Proof

/-- What the cell at an opcode byte must be. -/
def CellAgrees (opcode : Byte) : Cell → Prop
  | .invalid => True
  | .implied i base star => encode i = [opcode] ∧ i.row = ⟨opcode, base, star⟩
  | .oneByte make base star => ∀ b : Byte,
    encode (make b) = [opcode, b] ∧ (make b).row = ⟨opcode, base, star⟩ ∧
      (make b).op = (make 0).op ∧ (make b).mode = (make 0).mode
  | .twoBytes make base star => ∀ w : Word,
    encode (make w) = [opcode, Machine.lowByte w, Machine.highByte w] ∧ (make w).row = ⟨opcode, base, star⟩ ∧
      (make w).op = (make 0).op ∧ (make w).mode = (make 0).mode

/-- The cells of a list, at consecutive opcode bytes. -/
def CellsAgree : Nat → List Cell → Prop
  | _, [] => True
  | n, c :: cs => CellAgrees (BitVec.ofNat 8 n) c ∧ CellsAgree (n + 1) cs

theorem CellsAgree.get {n : Nat} {cs : List Cell} (h : CellsAgree n cs) (k : Nat) :
    CellAgrees (BitVec.ofNat 8 (n + k)) ((cs[k]?).getD .invalid) := by
  induction cs generalizing n k with
  | nil => exact trivial
  | cons c cs ih =>
    cases k with
    | zero => exact h.1
    | succ k =>
      have := ih h.2 k
      rw [Nat.add_right_comm] at this
      exact this

/-- The rows of a map, each at its high nibble. -/
def RowsAgree : Nat → List (List Cell) → Prop
  | _, [] => True
  | n, r :: rs => CellsAgree (16 * n) r ∧ RowsAgree (n + 1) rs

theorem RowsAgree.get {n : Nat} {rs : List (List Cell)} (h : RowsAgree n rs) (k l : Nat) :
    CellAgrees (BitVec.ofNat 8 (16 * (n + k) + l)) ((((rs[k]?).getD [])[l]?).getD .invalid) := by
  induction rs generalizing n k with
  | nil => exact trivial
  | cons r rs ih =>
    cases k with
    | zero => exact h.1.get l
    | succ k =>
      have := ih h.2 k
      rw [Nat.add_right_comm] at this
      exact this

theorem opcodeMap_agrees : RowsAgree 0 opcodeMap := by
  unfold opcodeMap opcodeRow0 opcodeRow1 opcodeRow2 opcodeRow3 opcodeRow4 opcodeRow5 opcodeRow6 opcodeRow7 opcodeRow8
    opcodeRow9 opcodeRowA opcodeRowB opcodeRowC opcodeRowD opcodeRowE opcodeRowF
  repeat' first
    | exact trivial
    | refine ⟨?_, ?_⟩
    | (intro _; exact ⟨rfl, rfl, rfl, rfl⟩)
    | rfl

/-- The cell at every opcode byte agrees with the encoding tables. -/
theorem cellAgrees (opcode : Byte) : CellAgrees opcode (cellAt opcode) := by
  have h := opcodeMap_agrees.get (opcode.toNat / 16) (opcode.toNat % 16)
  have hop : BitVec.ofNat 8 (16 * (0 + opcode.toNat / 16) + opcode.toNat % 16) = opcode := by
    rw [Nat.zero_add, Nat.div_add_mod, BitVec.ofNat_toNat, BitVec.setWidth_eq]
  rw [hop] at h
  exact h

end Sys2Proof
end

