-- ==== Sys2Proof/Laws/Encodes.lean ====
section
/-! SUPPORT. A check by evaluation that an operation has exactly the rows it is said to have, and the flag rule in the
terms of claims. -/

namespace Sys2Proof.Machine

/-- Whether the listed rows are the table's rows of an operation, by looking at all 256 opcode bytes. -/
def encodesCheck (o : Op) (rows : List (Byte × Mode × Nat × Bool)) : Bool :=
  rows.all (fun r => descr r.1 == some ⟨o, r.2.1, r.2.2.1, r.2.2.2⟩) &&
  (List.range 256).all fun k =>
    match descr (BitVec.ofNat 8 k) with
    | some d => !(d.op == o) || rows.contains (BitVec.ofNat 8 k, d.mode, d.base, d.condExtra)
    | none => true

/-- The check suffices; it evaluates in the kernel. -/
theorem encodes_of_check {o : Op} {rows : List (Byte × Mode × Nat × Bool)} (h : encodesCheck o rows = true) :
    Encodes o rows := by
  simp only [encodesCheck, Bool.and_eq_true, List.all_eq_true, beq_iff_eq, List.mem_range] at h
  intro opcode mode base star
  refine ⟨fun hd => ?_, h.1 _⟩
  have := h.2 opcode.toNat opcode.isLt
  rw [BitVec.ofNat_toNat, BitVec.setWidth_eq, hd] at this
  simpa using this

theorem bit_seven (v : Byte) : bit v 7 = decide (128 ≤ v.toNat) := by
  have := v.isLt
  rw [bit, ← BitVec.msb_eq_getLsbD_last v, BitVec.msb_eq_decide]

/-- `SetZN` says what the claims say of Z and N (R114). -/
theorem setZN_eq_withZN (v : Byte) (p : Flags) : p.setZN v = p.withZN v := by
  simp only [Flags.setZN, Flags.withZN, bit_seven, beq_eq_decide]

end Sys2Proof.Machine
end

