-- ==== Sys2Proof/Laws/State.lean ====
section
/-! SUPPORT. One lemma for each field of the state and each named update: what the update leaves in the field. -/

namespace Sys2Proof.Machine

variable {σ : Type}

@[simp] theorem Cpu.advance_a (c : Cpu σ) (n : Nat) : (c.advance n).a = c.a := rfl
@[simp] theorem Cpu.advance_x (c : Cpu σ) (n : Nat) : (c.advance n).x = c.x := rfl
@[simp] theorem Cpu.advance_y (c : Cpu σ) (n : Nat) : (c.advance n).y = c.y := rfl
@[simp] theorem Cpu.advance_sp (c : Cpu σ) (n : Nat) : (c.advance n).sp = c.sp := rfl
@[simp] theorem Cpu.advance_pc (c : Cpu σ) (n : Nat) : (c.advance n).pc = c.pc + BitVec.ofNat 16 n := rfl
@[simp] theorem Cpu.advance_p (c : Cpu σ) (n : Nat) : (c.advance n).p = c.p := rfl
@[simp] theorem Cpu.advance_cycles (c : Cpu σ) (n : Nat) : (c.advance n).cycles = c.cycles := rfl
@[simp] theorem Cpu.advance_nmiPending (c : Cpu σ) (n : Nat) : (c.advance n).nmiPending = c.nmiPending := rfl
@[simp] theorem Cpu.advance_irqLine (c : Cpu σ) (n : Nat) : (c.advance n).irqLine = c.irqLine := rfl
@[simp] theorem Cpu.advance_fault (c : Cpu σ) (n : Nat) : (c.advance n).fault = c.fault := rfl
@[simp] theorem Cpu.advance_mem (c : Cpu σ) (n : Nat) : (c.advance n).mem = c.mem := rfl

@[simp] theorem Cpu.charge_a (c : Cpu σ) (n : Nat) : (c.charge n).a = c.a := rfl
@[simp] theorem Cpu.charge_x (c : Cpu σ) (n : Nat) : (c.charge n).x = c.x := rfl
@[simp] theorem Cpu.charge_y (c : Cpu σ) (n : Nat) : (c.charge n).y = c.y := rfl
@[simp] theorem Cpu.charge_sp (c : Cpu σ) (n : Nat) : (c.charge n).sp = c.sp := rfl
@[simp] theorem Cpu.charge_pc (c : Cpu σ) (n : Nat) : (c.charge n).pc = c.pc := rfl
@[simp] theorem Cpu.charge_p (c : Cpu σ) (n : Nat) : (c.charge n).p = c.p := rfl
@[simp] theorem Cpu.charge_cycles (c : Cpu σ) (n : Nat) : (c.charge n).cycles = c.cycles + n := rfl
@[simp] theorem Cpu.charge_nmiPending (c : Cpu σ) (n : Nat) : (c.charge n).nmiPending = c.nmiPending := rfl
@[simp] theorem Cpu.charge_irqLine (c : Cpu σ) (n : Nat) : (c.charge n).irqLine = c.irqLine := rfl
@[simp] theorem Cpu.charge_fault (c : Cpu σ) (n : Nat) : (c.charge n).fault = c.fault := rfl
@[simp] theorem Cpu.charge_mem (c : Cpu σ) (n : Nat) : (c.charge n).mem = c.mem := rfl

@[simp] theorem Cpu.read_snd_a (B : Bus σ) (c : Cpu σ) (addr : Word) : ((c.read B addr).2).a = c.a := rfl
@[simp] theorem Cpu.read_snd_x (B : Bus σ) (c : Cpu σ) (addr : Word) : ((c.read B addr).2).x = c.x := rfl
@[simp] theorem Cpu.read_snd_y (B : Bus σ) (c : Cpu σ) (addr : Word) : ((c.read B addr).2).y = c.y := rfl
@[simp] theorem Cpu.read_snd_sp (B : Bus σ) (c : Cpu σ) (addr : Word) : ((c.read B addr).2).sp = c.sp := rfl
@[simp] theorem Cpu.read_snd_pc (B : Bus σ) (c : Cpu σ) (addr : Word) : ((c.read B addr).2).pc = c.pc := rfl
@[simp] theorem Cpu.read_snd_p (B : Bus σ) (c : Cpu σ) (addr : Word) : ((c.read B addr).2).p = c.p := rfl
@[simp] theorem Cpu.read_snd_cycles (B : Bus σ) (c : Cpu σ) (addr : Word) : ((c.read B addr).2).cycles = c.cycles := rfl
@[simp] theorem Cpu.read_snd_nmiPending (B : Bus σ) (c : Cpu σ) (addr : Word) : ((c.read B addr).2).nmiPending = c.nmiPending := rfl
@[simp] theorem Cpu.read_snd_irqLine (B : Bus σ) (c : Cpu σ) (addr : Word) : ((c.read B addr).2).irqLine = c.irqLine := rfl
@[simp] theorem Cpu.read_snd_fault (B : Bus σ) (c : Cpu σ) (addr : Word) : ((c.read B addr).2).fault = c.fault := rfl
@[simp] theorem Cpu.read_snd_mem (B : Bus σ) (c : Cpu σ) (addr : Word) : ((c.read B addr).2).mem = (B.readByte c.mem addr).2 := rfl

@[simp] theorem Cpu.write_a (B : Bus σ) (c : Cpu σ) (addr : Word) (v : Byte) : (c.write B addr v).a = c.a := rfl
@[simp] theorem Cpu.write_x (B : Bus σ) (c : Cpu σ) (addr : Word) (v : Byte) : (c.write B addr v).x = c.x := rfl
@[simp] theorem Cpu.write_y (B : Bus σ) (c : Cpu σ) (addr : Word) (v : Byte) : (c.write B addr v).y = c.y := rfl
@[simp] theorem Cpu.write_sp (B : Bus σ) (c : Cpu σ) (addr : Word) (v : Byte) : (c.write B addr v).sp = c.sp := rfl
@[simp] theorem Cpu.write_pc (B : Bus σ) (c : Cpu σ) (addr : Word) (v : Byte) : (c.write B addr v).pc = c.pc := rfl
@[simp] theorem Cpu.write_p (B : Bus σ) (c : Cpu σ) (addr : Word) (v : Byte) : (c.write B addr v).p = c.p := rfl
@[simp] theorem Cpu.write_cycles (B : Bus σ) (c : Cpu σ) (addr : Word) (v : Byte) : (c.write B addr v).cycles = c.cycles := rfl
@[simp] theorem Cpu.write_nmiPending (B : Bus σ) (c : Cpu σ) (addr : Word) (v : Byte) : (c.write B addr v).nmiPending = c.nmiPending := rfl
@[simp] theorem Cpu.write_irqLine (B : Bus σ) (c : Cpu σ) (addr : Word) (v : Byte) : (c.write B addr v).irqLine = c.irqLine := rfl
@[simp] theorem Cpu.write_fault (B : Bus σ) (c : Cpu σ) (addr : Word) (v : Byte) : (c.write B addr v).fault = c.fault := rfl
@[simp] theorem Cpu.write_mem (B : Bus σ) (c : Cpu σ) (addr : Word) (v : Byte) : (c.write B addr v).mem = B.writeByte c.mem addr v := rfl

@[simp] theorem Cpu.raiseIllegalOpcode_a (c : Cpu σ) (opcode : Byte) : (c.raiseIllegalOpcode opcode).a = c.a := rfl
@[simp] theorem Cpu.raiseIllegalOpcode_x (c : Cpu σ) (opcode : Byte) : (c.raiseIllegalOpcode opcode).x = c.x := rfl
@[simp] theorem Cpu.raiseIllegalOpcode_y (c : Cpu σ) (opcode : Byte) : (c.raiseIllegalOpcode opcode).y = c.y := rfl
@[simp] theorem Cpu.raiseIllegalOpcode_sp (c : Cpu σ) (opcode : Byte) : (c.raiseIllegalOpcode opcode).sp = c.sp := rfl
@[simp] theorem Cpu.raiseIllegalOpcode_pc (c : Cpu σ) (opcode : Byte) : (c.raiseIllegalOpcode opcode).pc = c.pc := rfl
@[simp] theorem Cpu.raiseIllegalOpcode_p (c : Cpu σ) (opcode : Byte) : (c.raiseIllegalOpcode opcode).p = c.p := rfl
@[simp] theorem Cpu.raiseIllegalOpcode_cycles (c : Cpu σ) (opcode : Byte) : (c.raiseIllegalOpcode opcode).cycles = c.cycles := rfl
@[simp] theorem Cpu.raiseIllegalOpcode_nmiPending (c : Cpu σ) (opcode : Byte) : (c.raiseIllegalOpcode opcode).nmiPending = c.nmiPending := rfl
@[simp] theorem Cpu.raiseIllegalOpcode_irqLine (c : Cpu σ) (opcode : Byte) : (c.raiseIllegalOpcode opcode).irqLine = c.irqLine := rfl
@[simp] theorem Cpu.raiseIllegalOpcode_fault (c : Cpu σ) (opcode : Byte) : (c.raiseIllegalOpcode opcode).fault = some (opcode, c.pc) := rfl
@[simp] theorem Cpu.raiseIllegalOpcode_mem (c : Cpu σ) (opcode : Byte) : (c.raiseIllegalOpcode opcode).mem = c.mem := rfl

@[simp] theorem Cpu.signalNMI_a (c : Cpu σ) : (c.signalNMI).a = c.a := rfl
@[simp] theorem Cpu.signalNMI_x (c : Cpu σ) : (c.signalNMI).x = c.x := rfl
@[simp] theorem Cpu.signalNMI_y (c : Cpu σ) : (c.signalNMI).y = c.y := rfl
@[simp] theorem Cpu.signalNMI_sp (c : Cpu σ) : (c.signalNMI).sp = c.sp := rfl
@[simp] theorem Cpu.signalNMI_pc (c : Cpu σ) : (c.signalNMI).pc = c.pc := rfl
@[simp] theorem Cpu.signalNMI_p (c : Cpu σ) : (c.signalNMI).p = c.p := rfl
@[simp] theorem Cpu.signalNMI_cycles (c : Cpu σ) : (c.signalNMI).cycles = c.cycles := rfl
@[simp] theorem Cpu.signalNMI_nmiPending (c : Cpu σ) : (c.signalNMI).nmiPending = true := rfl
@[simp] theorem Cpu.signalNMI_irqLine (c : Cpu σ) : (c.signalNMI).irqLine = c.irqLine := rfl
@[simp] theorem Cpu.signalNMI_fault (c : Cpu σ) : (c.signalNMI).fault = c.fault := rfl
@[simp] theorem Cpu.signalNMI_mem (c : Cpu σ) : (c.signalNMI).mem = c.mem := rfl

@[simp] theorem Cpu.setIRQ_a (c : Cpu σ) (level : Bool) : (c.setIRQ level).a = c.a := rfl
@[simp] theorem Cpu.setIRQ_x (c : Cpu σ) (level : Bool) : (c.setIRQ level).x = c.x := rfl
@[simp] theorem Cpu.setIRQ_y (c : Cpu σ) (level : Bool) : (c.setIRQ level).y = c.y := rfl
@[simp] theorem Cpu.setIRQ_sp (c : Cpu σ) (level : Bool) : (c.setIRQ level).sp = c.sp := rfl
@[simp] theorem Cpu.setIRQ_pc (c : Cpu σ) (level : Bool) : (c.setIRQ level).pc = c.pc := rfl
@[simp] theorem Cpu.setIRQ_p (c : Cpu σ) (level : Bool) : (c.setIRQ level).p = c.p := rfl
@[simp] theorem Cpu.setIRQ_cycles (c : Cpu σ) (level : Bool) : (c.setIRQ level).cycles = c.cycles := rfl
@[simp] theorem Cpu.setIRQ_nmiPending (c : Cpu σ) (level : Bool) : (c.setIRQ level).nmiPending = c.nmiPending := rfl
@[simp] theorem Cpu.setIRQ_irqLine (c : Cpu σ) (level : Bool) : (c.setIRQ level).irqLine = level := rfl
@[simp] theorem Cpu.setIRQ_fault (c : Cpu σ) (level : Bool) : (c.setIRQ level).fault = c.fault := rfl
@[simp] theorem Cpu.setIRQ_mem (c : Cpu σ) (level : Bool) : (c.setIRQ level).mem = c.mem := rfl

@[simp] theorem Flags.setZN_c (v : Byte) (p : Flags) : (p.setZN v).c = p.c := rfl
@[simp] theorem Flags.setZN_z (v : Byte) (p : Flags) : (p.setZN v).z = (v == 0) := rfl
@[simp] theorem Flags.setZN_i (v : Byte) (p : Flags) : (p.setZN v).i = p.i := rfl
@[simp] theorem Flags.setZN_d (v : Byte) (p : Flags) : (p.setZN v).d = p.d := rfl
@[simp] theorem Flags.setZN_b (v : Byte) (p : Flags) : (p.setZN v).b = p.b := rfl
@[simp] theorem Flags.setZN_u (v : Byte) (p : Flags) : (p.setZN v).u = p.u := rfl
@[simp] theorem Flags.setZN_v (v : Byte) (p : Flags) : (p.setZN v).v = p.v := rfl
@[simp] theorem Flags.setZN_n (v : Byte) (p : Flags) : (p.setZN v).n = bit v 7 := rfl

@[simp] theorem State.past_a (s : State) (i : Instr) (n : Nat) : (s.past i n).a = s.a := rfl
@[simp] theorem State.past_x (s : State) (i : Instr) (n : Nat) : (s.past i n).x = s.x := rfl
@[simp] theorem State.past_y (s : State) (i : Instr) (n : Nat) : (s.past i n).y = s.y := rfl
@[simp] theorem State.past_sp (s : State) (i : Instr) (n : Nat) : (s.past i n).sp = s.sp := rfl
@[simp] theorem State.past_pc (s : State) (i : Instr) (n : Nat) : (s.past i n).pc = s.pc + BitVec.ofNat 16 i.length := rfl
@[simp] theorem State.past_p (s : State) (i : Instr) (n : Nat) : (s.past i n).p = s.p := rfl
@[simp] theorem State.past_cycles (s : State) (i : Instr) (n : Nat) : (s.past i n).cycles = s.cycles + n := rfl
@[simp] theorem State.past_nmiPending (s : State) (i : Instr) (n : Nat) : (s.past i n).nmiPending = s.nmiPending := rfl
@[simp] theorem State.past_irqLine (s : State) (i : Instr) (n : Nat) : (s.past i n).irqLine = s.irqLine := rfl
@[simp] theorem State.past_fault (s : State) (i : Instr) (n : Nat) : (s.past i n).fault = s.fault := rfl
@[simp] theorem State.past_mem (s : State) (i : Instr) (n : Nat) : (s.past i n).mem = s.mem := rfl

@[simp] theorem Cpu.interruptPending_of_nmi (c : Cpu σ) (h : c.nmiPending = true) : c.interruptPending = some .nmi := by
  simp [Cpu.interruptPending, h]

/-- When no interrupt is taken: no NMI is pending, and IRQ is low or masked (R1110). -/
theorem Cpu.interruptPending_eq_none (c : Cpu σ) :
    c.interruptPending = none ↔ c.nmiPending = false ∧ (c.irqLine = false ∨ c.p.i = true) := by
  cases hn : c.nmiPending <;> cases hq : c.irqLine <;> cases hi : c.p.i <;> simp [Cpu.interruptPending, hn, hq, hi]

end Sys2Proof.Machine
end

