-- ==== Sys2Proof/Laws/Ops.lean ====
section
/-! SUPPORT. What each shared operation does on plain RAM, each said once; the provers cite these. -/

namespace Sys2Proof.Machine

theorem Cpu.read_ram (c : Cpu Memory) (addr : Word) : c.read Bus.ram addr = (Memory.read c.mem addr, c) := rfl

theorem Cpu.write_ram (c : Cpu Memory) (addr : Word) (v : Byte) :
    c.write Bus.ram addr v = { c with mem := Memory.write c.mem addr v } := rfl

theorem Cpu.readWord_ram (c : Cpu Memory) (addr : Word) :
    c.readWord Bus.ram addr = (Memory.readWord c.mem addr, c) := rfl

theorem Cpu.zpRead16_ram (c : Cpu Memory) (z : Byte) :
    c.zpRead16 Bus.ram z =
      (wordOf (Memory.read c.mem (zext16 (z + 1))) (Memory.read c.mem (zext16 z)), c) := rfl

theorem Cpu.push_ram (c : Cpu Memory) (v : Byte) :
    c.push Bus.ram v = { c with mem := Memory.write c.mem (stackAddr c.sp) v, sp := c.sp - 1 } := rfl

theorem Cpu.pop_ram (c : Cpu Memory) :
    c.pop Bus.ram = (Memory.read c.mem (stackAddr (c.sp + 1)), { c with sp := c.sp + 1 }) := rfl

theorem Cpu.pushWord_ram (c : Cpu Memory) (w : Word) :
    c.pushWord Bus.ram w =
      { c with
        mem := Memory.write (Memory.write c.mem (stackAddr c.sp) (highByte w)) (stackAddr (c.sp - 1)) (lowByte w)
        sp := c.sp - 1 - 1 } := rfl

theorem Cpu.popWord_ram (c : Cpu Memory) :
    c.popWord Bus.ram =
      (wordOf (Memory.read c.mem (stackAddr (c.sp + 1 + 1))) (Memory.read c.mem (stackAddr (c.sp + 1))),
        { c with sp := c.sp + 1 + 1 }) := rfl

/-- The memory after a handler's frame is pushed: the return address, high byte first, then the status. -/
def Memory.withFrame (m : Memory) (sp : Byte) (returnTo : Word) (status : Byte) : Memory :=
  Memory.write
    (Memory.write (Memory.write m (stackAddr sp) (highByte returnTo)) (stackAddr (sp - 1)) (lowByte returnTo))
    (stackAddr (sp - 1 - 1)) status

theorem Cpu.enterHandler_ram (c : Cpu Memory) (returnTo : Word) (status : Byte) (vector : Word) :
    c.enterHandler Bus.ram returnTo status vector =
      { c with
        mem := Memory.withFrame c.mem c.sp returnTo status
        sp := c.sp - 1 - 1 - 1
        pc := Memory.readWord (Memory.withFrame c.mem c.sp returnTo status) vector
        p := { c.p with i := true } } := by
  simp only [Cpu.enterHandler, Cpu.pushWord_ram, Cpu.push_ram, Cpu.readWord_ram, Memory.withFrame]

theorem Cpu.returnFromHandler_ram (c : Cpu Memory) :
    c.returnFromHandler Bus.ram =
      { c with
        sp := c.sp + 1 + 1 + 1
        p := Flags.unpack (Memory.read c.mem (stackAddr (c.sp + 1)))
        pc := wordOf (Memory.read c.mem (stackAddr (c.sp + 1 + 1 + 1)))
          (Memory.read c.mem (stackAddr (c.sp + 1 + 1))) } := by
  simp only [Cpu.returnFromHandler, Cpu.popWord_ram, Cpu.pop_ram]

theorem Cpu.hostReset_ram (c : Cpu Memory) :
    c.hostReset Bus.ram =
      { c with
        a := 0, x := 0, y := 0, sp := Config.spReset, p := Flags.unpack Config.pReset, nmiPending := false
        fault := none, pc := Memory.readWord c.mem Config.resetVector } := rfl

/-- Fetching from RAM changes nothing, and gives what the decoder gives for the three bytes at PC (R303, R404). -/
theorem Cpu.fetch_ram (c : Cpu Memory) :
    c.fetch Bus.ram =
      match decode [Memory.read c.mem c.pc, Memory.read c.mem (c.pc + 1), Memory.read c.mem (c.pc + 2)] with
      | .instr i _ => .instr i c
      | .invalid opcode => .invalid opcode c
      | .truncated => .invalid (Memory.read c.mem c.pc) c := by
  simp only [Cpu.fetch, Cpu.read_ram, decode]
  cases cellAt (Memory.read c.mem c.pc) <;> rfl

/-- Resolving on RAM leaves the state as it was. -/
theorem locate_ram_cpu (c : Cpu Memory) (m : MemOperand) : (locate Bus.ram c m).cpu = c := by cases m <;> rfl

/-- The effective address does not depend on PC: it is the same before and after the fetch. -/
theorem locate_advance_ea (c : Cpu Memory) (n : Nat) (m : MemOperand) :
    (locate Bus.ram (c.advance n) m).ea = (locate Bus.ram c m).ea := by cases m <;> rfl

theorem locate_advance_cross (c : Cpu Memory) (n : Nat) (m : MemOperand) :
    (locate Bus.ram (c.advance n) m).cross = (locate Bus.ram c m).cross := by cases m <;> rfl

theorem runRead_ram (i : Instr) (f : Byte → Cpu Memory → Cpu Memory) (src : ReadOperand) (s : State) :
    runRead Bus.ram i f src s.toCpu =
      ⟨f (s.load src) (s.toCpu.advance i.length), cost i (s.loadCrosses src) 0⟩ := by
  cases src with
  | immediate b => rfl
  | memory m =>
    simp only [runRead, locate_ram_cpu, locate_advance_ea, locate_advance_cross, Cpu.read_ram]
    rfl

theorem runStore_ram (i : Instr) (reg : Cpu Memory → Byte) (dst : MemOperand) (s : State) :
    runStore Bus.ram i reg dst s.toCpu =
      ⟨{ s.toCpu.advance i.length with mem := Memory.write s.mem (s.ea dst) (reg (s.toCpu.advance i.length)) },
        cost i (s.crosses dst) 0⟩ := by
  simp only [runStore, locate_ram_cpu, locate_advance_ea, locate_advance_cross, Cpu.write_ram]
  rfl

theorem runModify_ram_memory (i : Instr) (f : ByteFunction) (m : MemOperand) (s : State) :
    runModify Bus.ram i f (.memory m) s.toCpu =
      ⟨{ s.toCpu.advance i.length with
          mem := Memory.write s.mem (s.ea m) (f (s.peek (s.ea m)) s.p).1
          p := (f (s.peek (s.ea m)) s.p).2 },
        cost i (s.crosses m) 0⟩ := by
  simp only [runModify, locate_ram_cpu, locate_advance_ea, locate_advance_cross, Cpu.write_ram, Cpu.read_ram]
  rfl

theorem runJump_ram (i : Instr) (m : MemOperand) (s : State) :
    runJump Bus.ram i m s.toCpu = ⟨{ s.toCpu with pc := s.ea m }, cost i (s.crosses m) 0⟩ := by
  simp only [runJump, locate_ram_cpu, locate_advance_ea, locate_advance_cross]
  rfl

end Sys2Proof.Machine
end

