-- ==== Sys2Proof/Laws/Exec.lean ====
section
/-! SUPPORT. What running an instruction can do: every arm of `exec` is the run of its form on RAM, and what `step`
does in each of its cases. -/

namespace Sys2Proof.Machine

/-- Each arm runs its instruction's form on RAM. -/
theorem exec_eq_executeOn (i : Instr) (s : State) : exec i s = .next ⟨(executeOn Bus.ram i s.toCpu).charged⟩ := by
  cases i <;> rfl

theorem exec_read {i : Instr} {o : ReadOp} {src : ReadOperand} (s : State) (h : i.form = .read o src) :
    exec i s = .next ⟨(readExecutor o (s.load src) (s.toCpu.advance i.length)).charge
      (cost i (s.loadCrosses src) 0)⟩ := by
  rw [exec_eq_executeOn, executeOn, h]
  simp only [runRead_ram, Ran.charged]

theorem exec_store {i : Instr} {o : StoreOp} {dst : MemOperand} (s : State) (h : i.form = .store o dst) :
    exec i s = .next ⟨Cpu.charge
      { s.toCpu.advance i.length with
        mem := Memory.write s.mem (s.ea dst) (storedRegister o (s.toCpu.advance i.length)) }
      (cost i (s.crosses dst) 0)⟩ := by
  rw [exec_eq_executeOn, executeOn, h]
  simp only [runStore_ram, Ran.charged]

theorem exec_modify_accumulator {i : Instr} {o : ModifyOp} (s : State) (h : i.form = .modify o .accumulator) :
    exec i s = .next ⟨Cpu.charge
      { s.toCpu.advance i.length with a := (byteFunction o s.a s.p).1, p := (byteFunction o s.a s.p).2 }
      (cost i false 0)⟩ := by
  rw [exec_eq_executeOn, executeOn, h]
  rfl

theorem exec_modify_memory {i : Instr} {o : ModifyOp} {m : MemOperand} (s : State)
    (h : i.form = .modify o (.memory m)) :
    exec i s = .next ⟨Cpu.charge
      { s.toCpu.advance i.length with
        mem := Memory.write s.mem (s.ea m) (byteFunction o (s.peek (s.ea m)) s.p).1
        p := (byteFunction o (s.peek (s.ea m)) s.p).2 }
      (cost i (s.crosses m) 0)⟩ := by
  rw [exec_eq_executeOn, executeOn, h]
  simp only [runModify_ram_memory, Ran.charged]

theorem exec_branch {i : Instr} {o : BranchOp} {rel : Byte} (s : State) (h : i.form = .branch o rel) :
    exec i s = .next ⟨(runBranch i (branchCondition o) rel s.toCpu).charged⟩ := by
  rw [exec_eq_executeOn, executeOn, h]

theorem exec_jump {i : Instr} {m : MemOperand} (s : State) (h : i.form = .jump m) :
    exec i s = .next ⟨Cpu.charge { s.toCpu with pc := s.ea m } (cost i (s.crosses m) 0)⟩ := by
  rw [exec_eq_executeOn, executeOn, h]
  simp only [runJump_ram, Ran.charged]

theorem exec_call {i : Instr} {target : Word} (s : State) (h : i.form = .call target) :
    exec i s = .next ⟨Cpu.charge
      { (s.toCpu.advance i.length).pushWord Bus.ram (s.pc + BitVec.ofNat 16 i.length - 1) with pc := target }
      (cost i false 0)⟩ := by
  rw [exec_eq_executeOn, executeOn, h]
  rfl

theorem exec_implied {i : Instr} {o : ImpliedOp} (s : State) (h : i.form = .implied o) :
    exec i s = .next ⟨(impliedExecutor Bus.ram o (s.toCpu.advance i.length)).charge (cost i false 0)⟩ := by
  rw [exec_eq_executeOn, executeOn, h]
  rfl

/-- Every instruction completes: `exec` always answers a next state (R1102). -/
theorem exec_completes (i : Instr) (s : State) : ∃ t, exec i s = .next t := ⟨_, exec_eq_executeOn i s⟩

/-- What a step can do when it answers a next state: no fault was latched, and an interrupt was taken, an invalid
opcode was latched, or the instruction at PC ran. -/
theorem step_cases {s t : State} (h : step s = .next t) :
    s.fault = none ∧
      ((∃ src, s.toCpu.interruptPending = some src ∧ t = ⟨s.toCpu.takeInterrupt Bus.ram src⟩) ∨
        (s.toCpu.interruptPending = none ∧ ∃ opcode,
          s.toCpu.fetch Bus.ram = .invalid opcode s.toCpu ∧ t = ⟨s.toCpu.raiseIllegalOpcode opcode⟩) ∨
        (s.toCpu.interruptPending = none ∧ ∃ i, s.toCpu.fetch Bus.ram = .instr i s.toCpu ∧ exec i s = .next t)) := by
  have hf : (∃ i, s.toCpu.fetch Bus.ram = .instr i s.toCpu) ∨
      ∃ opcode, s.toCpu.fetch Bus.ram = .invalid opcode s.toCpu := by
    rw [Cpu.fetch_ram]
    cases decode [Memory.read s.mem s.pc, Memory.read s.mem (s.pc + 1), Memory.read s.mem (s.pc + 2)] <;> simp
  unfold step at h
  cases hfault : s.fault with
  | some latch => simp [hfault] at h
  | none =>
    rw [hfault] at h
    cases hp : s.toCpu.interruptPending with
    | some src =>
      simp only [hp, Host.Outcome.next.injEq] at h
      exact ⟨rfl, .inl ⟨src, rfl, h.symm⟩⟩
    | none =>
      rw [hp] at h
      obtain ⟨i, hi⟩ | ⟨opcode, ho⟩ := hf
      · rw [hi] at h
        exact ⟨rfl, .inr (.inr ⟨rfl, i, hi, h⟩)⟩
      · simp only [ho, Host.Outcome.next.injEq] at h
        exact ⟨rfl, .inr (.inl ⟨rfl, opcode, ho, h.symm⟩)⟩

end Sys2Proof.Machine
end

