-- ==== Sys2Proof/Laws/PerInstr.lean ====
section
/-! SUPPORT. Facts made for each instruction: the round trip of its encoding. -/

namespace Sys2Proof.Laws.RoundTrip

/-- The decoder reads back what the encoder writes, whatever bytes follow. -/
def Statement (i : Instr) : Prop := ∀ rest : List Byte, decode (encode i ++ rest) = .instr i rest

theorem adcIndX (v : Byte) : Statement (.adcIndX v) := decode_oneByte (opcode := 0x61) rfl v
theorem adcZp (v : Byte) : Statement (.adcZp v) := decode_oneByte (opcode := 0x65) rfl v
theorem adcImm (v : Byte) : Statement (.adcImm v) := decode_oneByte (opcode := 0x69) rfl v
theorem adcAbs (v : Word) : Statement (.adcAbs v) := decode_twoBytes (opcode := 0x6D) rfl v
theorem adcIndY (v : Byte) : Statement (.adcIndY v) := decode_oneByte (opcode := 0x71) rfl v
theorem adcZpX (v : Byte) : Statement (.adcZpX v) := decode_oneByte (opcode := 0x75) rfl v
theorem adcAbsY (v : Word) : Statement (.adcAbsY v) := decode_twoBytes (opcode := 0x79) rfl v
theorem adcAbsX (v : Word) : Statement (.adcAbsX v) := decode_twoBytes (opcode := 0x7D) rfl v
theorem sbcIndX (v : Byte) : Statement (.sbcIndX v) := decode_oneByte (opcode := 0xE1) rfl v
theorem sbcZp (v : Byte) : Statement (.sbcZp v) := decode_oneByte (opcode := 0xE5) rfl v
theorem sbcImm (v : Byte) : Statement (.sbcImm v) := decode_oneByte (opcode := 0xE9) rfl v
theorem sbcAbs (v : Word) : Statement (.sbcAbs v) := decode_twoBytes (opcode := 0xED) rfl v
theorem sbcIndY (v : Byte) : Statement (.sbcIndY v) := decode_oneByte (opcode := 0xF1) rfl v
theorem sbcZpX (v : Byte) : Statement (.sbcZpX v) := decode_oneByte (opcode := 0xF5) rfl v
theorem sbcAbsY (v : Word) : Statement (.sbcAbsY v) := decode_twoBytes (opcode := 0xF9) rfl v
theorem sbcAbsX (v : Word) : Statement (.sbcAbsX v) := decode_twoBytes (opcode := 0xFD) rfl v
theorem andIndX (v : Byte) : Statement (.andIndX v) := decode_oneByte (opcode := 0x21) rfl v
theorem andZp (v : Byte) : Statement (.andZp v) := decode_oneByte (opcode := 0x25) rfl v
theorem andImm (v : Byte) : Statement (.andImm v) := decode_oneByte (opcode := 0x29) rfl v
theorem andAbs (v : Word) : Statement (.andAbs v) := decode_twoBytes (opcode := 0x2D) rfl v
theorem andIndY (v : Byte) : Statement (.andIndY v) := decode_oneByte (opcode := 0x31) rfl v
theorem andZpX (v : Byte) : Statement (.andZpX v) := decode_oneByte (opcode := 0x35) rfl v
theorem andAbsY (v : Word) : Statement (.andAbsY v) := decode_twoBytes (opcode := 0x39) rfl v
theorem andAbsX (v : Word) : Statement (.andAbsX v) := decode_twoBytes (opcode := 0x3D) rfl v
theorem oraIndX (v : Byte) : Statement (.oraIndX v) := decode_oneByte (opcode := 0x01) rfl v
theorem oraZp (v : Byte) : Statement (.oraZp v) := decode_oneByte (opcode := 0x05) rfl v
theorem oraImm (v : Byte) : Statement (.oraImm v) := decode_oneByte (opcode := 0x09) rfl v
theorem oraAbs (v : Word) : Statement (.oraAbs v) := decode_twoBytes (opcode := 0x0D) rfl v
theorem oraIndY (v : Byte) : Statement (.oraIndY v) := decode_oneByte (opcode := 0x11) rfl v
theorem oraZpX (v : Byte) : Statement (.oraZpX v) := decode_oneByte (opcode := 0x15) rfl v
theorem oraAbsY (v : Word) : Statement (.oraAbsY v) := decode_twoBytes (opcode := 0x19) rfl v
theorem oraAbsX (v : Word) : Statement (.oraAbsX v) := decode_twoBytes (opcode := 0x1D) rfl v
theorem eorIndX (v : Byte) : Statement (.eorIndX v) := decode_oneByte (opcode := 0x41) rfl v
theorem eorZp (v : Byte) : Statement (.eorZp v) := decode_oneByte (opcode := 0x45) rfl v
theorem eorImm (v : Byte) : Statement (.eorImm v) := decode_oneByte (opcode := 0x49) rfl v
theorem eorAbs (v : Word) : Statement (.eorAbs v) := decode_twoBytes (opcode := 0x4D) rfl v
theorem eorIndY (v : Byte) : Statement (.eorIndY v) := decode_oneByte (opcode := 0x51) rfl v
theorem eorZpX (v : Byte) : Statement (.eorZpX v) := decode_oneByte (opcode := 0x55) rfl v
theorem eorAbsY (v : Word) : Statement (.eorAbsY v) := decode_twoBytes (opcode := 0x59) rfl v
theorem eorAbsX (v : Word) : Statement (.eorAbsX v) := decode_twoBytes (opcode := 0x5D) rfl v
theorem cmpIndX (v : Byte) : Statement (.cmpIndX v) := decode_oneByte (opcode := 0xC1) rfl v
theorem cmpZp (v : Byte) : Statement (.cmpZp v) := decode_oneByte (opcode := 0xC5) rfl v
theorem cmpImm (v : Byte) : Statement (.cmpImm v) := decode_oneByte (opcode := 0xC9) rfl v
theorem cmpAbs (v : Word) : Statement (.cmpAbs v) := decode_twoBytes (opcode := 0xCD) rfl v
theorem cmpIndY (v : Byte) : Statement (.cmpIndY v) := decode_oneByte (opcode := 0xD1) rfl v
theorem cmpZpX (v : Byte) : Statement (.cmpZpX v) := decode_oneByte (opcode := 0xD5) rfl v
theorem cmpAbsY (v : Word) : Statement (.cmpAbsY v) := decode_twoBytes (opcode := 0xD9) rfl v
theorem cmpAbsX (v : Word) : Statement (.cmpAbsX v) := decode_twoBytes (opcode := 0xDD) rfl v
theorem cpxImm (v : Byte) : Statement (.cpxImm v) := decode_oneByte (opcode := 0xE0) rfl v
theorem cpxZp (v : Byte) : Statement (.cpxZp v) := decode_oneByte (opcode := 0xE4) rfl v
theorem cpxAbs (v : Word) : Statement (.cpxAbs v) := decode_twoBytes (opcode := 0xEC) rfl v
theorem cpyImm (v : Byte) : Statement (.cpyImm v) := decode_oneByte (opcode := 0xC0) rfl v
theorem cpyZp (v : Byte) : Statement (.cpyZp v) := decode_oneByte (opcode := 0xC4) rfl v
theorem cpyAbs (v : Word) : Statement (.cpyAbs v) := decode_twoBytes (opcode := 0xCC) rfl v
theorem bitZp (v : Byte) : Statement (.bitZp v) := decode_oneByte (opcode := 0x24) rfl v
theorem bitAbs (v : Word) : Statement (.bitAbs v) := decode_twoBytes (opcode := 0x2C) rfl v
theorem ldaIndX (v : Byte) : Statement (.ldaIndX v) := decode_oneByte (opcode := 0xA1) rfl v
theorem ldaZp (v : Byte) : Statement (.ldaZp v) := decode_oneByte (opcode := 0xA5) rfl v
theorem ldaImm (v : Byte) : Statement (.ldaImm v) := decode_oneByte (opcode := 0xA9) rfl v
theorem ldaAbs (v : Word) : Statement (.ldaAbs v) := decode_twoBytes (opcode := 0xAD) rfl v
theorem ldaIndY (v : Byte) : Statement (.ldaIndY v) := decode_oneByte (opcode := 0xB1) rfl v
theorem ldaZpX (v : Byte) : Statement (.ldaZpX v) := decode_oneByte (opcode := 0xB5) rfl v
theorem ldaAbsY (v : Word) : Statement (.ldaAbsY v) := decode_twoBytes (opcode := 0xB9) rfl v
theorem ldaAbsX (v : Word) : Statement (.ldaAbsX v) := decode_twoBytes (opcode := 0xBD) rfl v
theorem ldxImm (v : Byte) : Statement (.ldxImm v) := decode_oneByte (opcode := 0xA2) rfl v
theorem ldxZp (v : Byte) : Statement (.ldxZp v) := decode_oneByte (opcode := 0xA6) rfl v
theorem ldxAbs (v : Word) : Statement (.ldxAbs v) := decode_twoBytes (opcode := 0xAE) rfl v
theorem ldxZpY (v : Byte) : Statement (.ldxZpY v) := decode_oneByte (opcode := 0xB6) rfl v
theorem ldxAbsY (v : Word) : Statement (.ldxAbsY v) := decode_twoBytes (opcode := 0xBE) rfl v
theorem ldyImm (v : Byte) : Statement (.ldyImm v) := decode_oneByte (opcode := 0xA0) rfl v
theorem ldyZp (v : Byte) : Statement (.ldyZp v) := decode_oneByte (opcode := 0xA4) rfl v
theorem ldyAbs (v : Word) : Statement (.ldyAbs v) := decode_twoBytes (opcode := 0xAC) rfl v
theorem ldyZpX (v : Byte) : Statement (.ldyZpX v) := decode_oneByte (opcode := 0xB4) rfl v
theorem ldyAbsX (v : Word) : Statement (.ldyAbsX v) := decode_twoBytes (opcode := 0xBC) rfl v
theorem staIndX (v : Byte) : Statement (.staIndX v) := decode_oneByte (opcode := 0x81) rfl v
theorem staZp (v : Byte) : Statement (.staZp v) := decode_oneByte (opcode := 0x85) rfl v
theorem staAbs (v : Word) : Statement (.staAbs v) := decode_twoBytes (opcode := 0x8D) rfl v
theorem staIndY (v : Byte) : Statement (.staIndY v) := decode_oneByte (opcode := 0x91) rfl v
theorem staZpX (v : Byte) : Statement (.staZpX v) := decode_oneByte (opcode := 0x95) rfl v
theorem staAbsY (v : Word) : Statement (.staAbsY v) := decode_twoBytes (opcode := 0x99) rfl v
theorem staAbsX (v : Word) : Statement (.staAbsX v) := decode_twoBytes (opcode := 0x9D) rfl v
theorem stxZp (v : Byte) : Statement (.stxZp v) := decode_oneByte (opcode := 0x86) rfl v
theorem stxAbs (v : Word) : Statement (.stxAbs v) := decode_twoBytes (opcode := 0x8E) rfl v
theorem stxZpY (v : Byte) : Statement (.stxZpY v) := decode_oneByte (opcode := 0x96) rfl v
theorem styZp (v : Byte) : Statement (.styZp v) := decode_oneByte (opcode := 0x84) rfl v
theorem styAbs (v : Word) : Statement (.styAbs v) := decode_twoBytes (opcode := 0x8C) rfl v
theorem styZpX (v : Byte) : Statement (.styZpX v) := decode_oneByte (opcode := 0x94) rfl v
theorem aslZp (v : Byte) : Statement (.aslZp v) := decode_oneByte (opcode := 0x06) rfl v
theorem aslAcc : Statement .aslAcc := decode_implied (opcode := 0x0A) rfl
theorem aslAbs (v : Word) : Statement (.aslAbs v) := decode_twoBytes (opcode := 0x0E) rfl v
theorem aslZpX (v : Byte) : Statement (.aslZpX v) := decode_oneByte (opcode := 0x16) rfl v
theorem aslAbsX (v : Word) : Statement (.aslAbsX v) := decode_twoBytes (opcode := 0x1E) rfl v
theorem lsrZp (v : Byte) : Statement (.lsrZp v) := decode_oneByte (opcode := 0x46) rfl v
theorem lsrAcc : Statement .lsrAcc := decode_implied (opcode := 0x4A) rfl
theorem lsrAbs (v : Word) : Statement (.lsrAbs v) := decode_twoBytes (opcode := 0x4E) rfl v
theorem lsrZpX (v : Byte) : Statement (.lsrZpX v) := decode_oneByte (opcode := 0x56) rfl v
theorem lsrAbsX (v : Word) : Statement (.lsrAbsX v) := decode_twoBytes (opcode := 0x5E) rfl v
theorem rolZp (v : Byte) : Statement (.rolZp v) := decode_oneByte (opcode := 0x26) rfl v
theorem rolAcc : Statement .rolAcc := decode_implied (opcode := 0x2A) rfl
theorem rolAbs (v : Word) : Statement (.rolAbs v) := decode_twoBytes (opcode := 0x2E) rfl v
theorem rolZpX (v : Byte) : Statement (.rolZpX v) := decode_oneByte (opcode := 0x36) rfl v
theorem rolAbsX (v : Word) : Statement (.rolAbsX v) := decode_twoBytes (opcode := 0x3E) rfl v
theorem rorZp (v : Byte) : Statement (.rorZp v) := decode_oneByte (opcode := 0x66) rfl v
theorem rorAcc : Statement .rorAcc := decode_implied (opcode := 0x6A) rfl
theorem rorAbs (v : Word) : Statement (.rorAbs v) := decode_twoBytes (opcode := 0x6E) rfl v
theorem rorZpX (v : Byte) : Statement (.rorZpX v) := decode_oneByte (opcode := 0x76) rfl v
theorem rorAbsX (v : Word) : Statement (.rorAbsX v) := decode_twoBytes (opcode := 0x7E) rfl v
theorem incZp (v : Byte) : Statement (.incZp v) := decode_oneByte (opcode := 0xE6) rfl v
theorem incAbs (v : Word) : Statement (.incAbs v) := decode_twoBytes (opcode := 0xEE) rfl v
theorem incZpX (v : Byte) : Statement (.incZpX v) := decode_oneByte (opcode := 0xF6) rfl v
theorem incAbsX (v : Word) : Statement (.incAbsX v) := decode_twoBytes (opcode := 0xFE) rfl v
theorem decZp (v : Byte) : Statement (.decZp v) := decode_oneByte (opcode := 0xC6) rfl v
theorem decAbs (v : Word) : Statement (.decAbs v) := decode_twoBytes (opcode := 0xCE) rfl v
theorem decZpX (v : Byte) : Statement (.decZpX v) := decode_oneByte (opcode := 0xD6) rfl v
theorem decAbsX (v : Word) : Statement (.decAbsX v) := decode_twoBytes (opcode := 0xDE) rfl v
theorem bcc (v : Byte) : Statement (.bcc v) := decode_oneByte (opcode := 0x90) rfl v
theorem bcs (v : Byte) : Statement (.bcs v) := decode_oneByte (opcode := 0xB0) rfl v
theorem beq (v : Byte) : Statement (.beq v) := decode_oneByte (opcode := 0xF0) rfl v
theorem bne (v : Byte) : Statement (.bne v) := decode_oneByte (opcode := 0xD0) rfl v
theorem bmi (v : Byte) : Statement (.bmi v) := decode_oneByte (opcode := 0x30) rfl v
theorem bpl (v : Byte) : Statement (.bpl v) := decode_oneByte (opcode := 0x10) rfl v
theorem bvc (v : Byte) : Statement (.bvc v) := decode_oneByte (opcode := 0x50) rfl v
theorem bvs (v : Byte) : Statement (.bvs v) := decode_oneByte (opcode := 0x70) rfl v
theorem jmpAbs (v : Word) : Statement (.jmpAbs v) := decode_twoBytes (opcode := 0x4C) rfl v
theorem jmpInd (v : Word) : Statement (.jmpInd v) := decode_twoBytes (opcode := 0x6C) rfl v
theorem jsr (v : Word) : Statement (.jsr v) := decode_twoBytes (opcode := 0x20) rfl v
theorem brk : Statement .brk := decode_implied (opcode := 0x00) rfl
theorem php : Statement .php := decode_implied (opcode := 0x08) rfl
theorem clc : Statement .clc := decode_implied (opcode := 0x18) rfl
theorem plp : Statement .plp := decode_implied (opcode := 0x28) rfl
theorem sec : Statement .sec := decode_implied (opcode := 0x38) rfl
theorem rti : Statement .rti := decode_implied (opcode := 0x40) rfl
theorem pha : Statement .pha := decode_implied (opcode := 0x48) rfl
theorem cli : Statement .cli := decode_implied (opcode := 0x58) rfl
theorem rts : Statement .rts := decode_implied (opcode := 0x60) rfl
theorem pla : Statement .pla := decode_implied (opcode := 0x68) rfl
theorem sei : Statement .sei := decode_implied (opcode := 0x78) rfl
theorem dey : Statement .dey := decode_implied (opcode := 0x88) rfl
theorem txa : Statement .txa := decode_implied (opcode := 0x8A) rfl
theorem tya : Statement .tya := decode_implied (opcode := 0x98) rfl
theorem txs : Statement .txs := decode_implied (opcode := 0x9A) rfl
theorem tay : Statement .tay := decode_implied (opcode := 0xA8) rfl
theorem tax : Statement .tax := decode_implied (opcode := 0xAA) rfl
theorem clv : Statement .clv := decode_implied (opcode := 0xB8) rfl
theorem tsx : Statement .tsx := decode_implied (opcode := 0xBA) rfl
theorem iny : Statement .iny := decode_implied (opcode := 0xC8) rfl
theorem dex : Statement .dex := decode_implied (opcode := 0xCA) rfl
theorem cld : Statement .cld := decode_implied (opcode := 0xD8) rfl
theorem inx : Statement .inx := decode_implied (opcode := 0xE8) rfl
theorem nop : Statement .nop := decode_implied (opcode := 0xEA) rfl
theorem sed : Statement .sed := decode_implied (opcode := 0xF8) rfl

end Sys2Proof.Laws.RoundTrip
end

