-- ==== Sys2Proof/Laws/Recording.lean ====
section
/-! SUPPORT. What the recording BUS adds: the underlying access, and one entry at the end of the record. -/

namespace Sys2Proof.Machine

variable {σ : Type}

@[simp] theorem Bus.recording_read_value (B : Bus σ) (m : σ × List Access) (a : Word) :
    (B.recording.readByte m a).1 = (B.readByte m.1 a).1 := rfl

@[simp] theorem Bus.recording_read_memory (B : Bus σ) (m : σ × List Access) (a : Word) :
    (B.recording.readByte m a).2.1 = (B.readByte m.1 a).2 := rfl

@[simp] theorem Bus.recording_read_record (B : Bus σ) (m : σ × List Access) (a : Word) :
    (B.recording.readByte m a).2.2 = m.2 ++ [.read a (B.readByte m.1 a).1] := rfl

@[simp] theorem Bus.recording_write_memory (B : Bus σ) (m : σ × List Access) (a : Word) (v : Byte) :
    (B.recording.writeByte m a v).1 = B.writeByte m.1 a v := rfl

@[simp] theorem Bus.recording_write_record (B : Bus σ) (m : σ × List Access) (a : Word) (v : Byte) :
    (B.recording.writeByte m a v).2 = m.2 ++ [.write a v] := rfl

@[simp] theorem Access.shape_read (a : Word) (v : Byte) : (Access.read a v).shape = (false, a) := rfl

@[simp] theorem Access.shape_write (a : Word) (v : Byte) : (Access.write a v).shape = (true, a) := rfl

/-- Resolving reads the mode's pointer, on any BUS, and does not look at PC. -/
theorem locate_advance (B : Bus σ) (c : Cpu σ) (m : MemOperand) (n : Nat) :
    locate B (c.advance n) m = ⟨(locate B c m).ea, (locate B c m).cross, (locate B c m).cpu.advance n⟩ := by
  cases m <;> rfl

end Sys2Proof.Machine
end

