-- ==== Sys2Proof/Laws/Runs.lean ====
section
/-! SUPPORT. The state after a number of steps of the core, and the cycles those steps return: each from its first step
and from its last. -/

namespace Sys2Proof.Machine

variable {σ : Type} (B : Bus σ) (n : Nat) (c : Cpu σ)

@[simp] theorem stepsOn_zero : stepsOn B 0 c = c := rfl

theorem stepsOn_succ : stepsOn B (n + 1) c = stepsOn B n (stepOn B c).2 := rfl

/-- `n + 1` steps are `n` steps and one more. -/
theorem stepsOn_succ_last : stepsOn B (n + 1) c = (stepOn B (stepsOn B n c)).2 := by
  induction n generalizing c with
  | zero => rfl
  | succ n ih => exact ih (stepOn B c).2

@[simp] theorem StepResult.consumed_cycles (m : Nat) : (StepResult.cycles m).consumed = m := rfl

@[simp] theorem StepResult.consumed_fault (opcode : Byte) (pc : Word) : (StepResult.fault opcode pc).consumed = 0 := rfl

@[simp] theorem cyclesOn_zero : cyclesOn B 0 c = 0 := rfl

theorem cyclesOn_succ : cyclesOn B (n + 1) c = (stepOn B c).1.consumed + cyclesOn B n (stepOn B c).2 := rfl

/-- The cycles of `n + 1` steps are those of `n` steps and of one more. -/
theorem cyclesOn_succ_last : cyclesOn B (n + 1) c = cyclesOn B n c + (stepOn B (stepsOn B n c)).1.consumed := by
  induction n generalizing c with
  | zero => simp [cyclesOn_succ]
  | succ n ih => rw [cyclesOn_succ, ih, cyclesOn_succ, stepsOn_succ, Nat.add_assoc]

end Sys2Proof.Machine
end

