-- ==== Sys2Proof/Laws/Stack.lean ====
section
/-! SUPPORT. What the executors that use the stack do on plain RAM, and the addresses of the stack page. -/

namespace Sys2Proof.Machine

theorem toNat_stackSlot (sp : Byte) : (stackSlot sp).toNat = 256 + sp.toNat := by
  have := sp.isLt
  simp only [stackSlot, BitVec.toNat_ofNat]
  omega

/-- The address the core computes is `0x0100 + SP` (R102). -/
theorem stackAddr_eq_stackSlot (sp : Byte) : stackAddr sp = stackSlot sp := by
  have := sp.isLt
  apply BitVec.eq_of_toNat_eq
  rw [toNat_stackSlot, stackAddr, BitVec.toNat_add, toNat_zext16]
  have hbase : Config.stackBase.toNat = 256 := rfl
  omega

/-- No address above the stack page is a stack slot, so a push leaves the vectors alone. -/
theorem ne_stackSlot_of_le {addr : Word} (sp : Byte) (h : 512 ≤ addr.toNat) : addr ≠ stackSlot sp := by
  rintro rfl
  have := toNat_stackSlot sp
  have := sp.isLt
  omega

theorem stackSlot_injective {sp sp' : Byte} (h : stackSlot sp = stackSlot sp') : sp = sp' := by
  apply BitVec.eq_of_toNat_eq
  have := congrArg BitVec.toNat h
  simp only [toNat_stackSlot] at this
  omega

/-- A frame is a pushed word with the status byte below it. -/
theorem Memory.withFrame_eq (m : Memory) (sp : Byte) (returnTo : Word) (status : Byte) :
    Memory.withFrame m sp returnTo status =
      Memory.write (Memory.withWordPushed m sp returnTo) (stackSlot (sp - 2)) status := by
  have h : sp - 1 - 1 = sp - 2 := by bv_omega
  simp only [Memory.withFrame, Memory.withWordPushed, stackAddr_eq_stackSlot, h]

theorem Memory.read_withFrame_of_le (m : Memory) (sp : Byte) (returnTo : Word) (status : Byte) {addr : Word}
    (h : 512 ≤ addr.toNat) : Memory.read (Memory.withFrame m sp returnTo status) addr = Memory.read m addr := by
  simp only [Memory.withFrame_eq, Memory.withWordPushed]
  rw [Memory.read_write_other _ _ _ _ (ne_stackSlot_of_le _ h),
    Memory.read_write_other _ _ _ _ (ne_stackSlot_of_le _ h), Memory.read_write_other _ _ _ _ (ne_stackSlot_of_le _ h)]

theorem Memory.wf_withWordPushed {m : Memory} (sp : Byte) (w : Word) (hm : Memory.wf m = true) :
    Memory.wf (Memory.withWordPushed m sp w) = true := Memory.wf_write _ _ (Memory.wf_write _ _ hm)

theorem Memory.wf_withFrame {m : Memory} (sp : Byte) (returnTo : Word) (status : Byte) (hm : Memory.wf m = true) :
    Memory.wf (Memory.withFrame m sp returnTo status) = true :=
  Memory.wf_write _ _ (Memory.wf_write _ _ (Memory.wf_write _ _ hm))

/-- The handler entry in the terms of claims: the vector is read from memory as it was before the pushes. -/
theorem Cpu.enterHandler_ram_slots (c : Cpu Memory) (returnTo : Word) (status : Byte) {vector : Word}
    (h : 512 ≤ vector.toNat) (h1 : 512 ≤ (vector + 1).toNat) :
    c.enterHandler Bus.ram returnTo status vector =
      { c with
        mem := Memory.write (Memory.withWordPushed c.mem c.sp returnTo) (stackSlot (c.sp - 2)) status
        sp := c.sp - 3
        pc := Memory.readWord c.mem vector
        p := { c.p with i := true } } := by
  have hsp : c.sp - 1 - 1 - 1 = c.sp - 3 := by bv_omega
  rw [Cpu.enterHandler_ram]
  simp only [Memory.readWord, Memory.read_withFrame_of_le _ _ _ _ h, Memory.read_withFrame_of_le _ _ _ _ h1]
  simp only [hsp, Memory.withFrame_eq]

theorem Cpu.takeInterrupt_ram (c : Cpu Memory) (src : Interrupt) :
    c.takeInterrupt Bus.ram src =
      { c with
        nmiPending := (c.acknowledge src).nmiPending
        mem := Memory.write (Memory.withWordPushed c.mem c.sp c.pc) (stackSlot (c.sp - 2)) c.p.pushedByInterrupt
        sp := c.sp - 3
        pc := Memory.readWord c.mem src.vector
        p := { c.p with i := true }
        cycles := c.cycles + 7 } := by
  cases src <;>
    (simp only [Cpu.takeInterrupt, Cpu.interruptEntry]
     rw [Cpu.enterHandler_ram_slots _ _ _ (by decide) (by decide)]
     rfl)

theorem phaOp_ram (c : Cpu Memory) :
    phaOp Bus.ram c = { c with mem := Memory.write c.mem (stackSlot c.sp) c.a, sp := c.sp - 1 } := by
  simp only [phaOp, Cpu.push_ram, stackAddr_eq_stackSlot]

theorem phpOp_ram (c : Cpu Memory) :
    phpOp Bus.ram c =
      { c with mem := Memory.write c.mem (stackSlot c.sp) c.p.pushedByInstruction, sp := c.sp - 1 } := by
  simp only [phpOp, Cpu.push_ram, stackAddr_eq_stackSlot]

theorem plaOp_ram (c : Cpu Memory) :
    plaOp Bus.ram c =
      { c with
        a := Memory.read c.mem (stackSlot (c.sp + 1))
        sp := c.sp + 1
        p := c.p.setZN (Memory.read c.mem (stackSlot (c.sp + 1))) } := by
  simp only [plaOp, Cpu.pop_ram, stackAddr_eq_stackSlot]

theorem plpOp_ram (c : Cpu Memory) :
    plpOp Bus.ram c =
      { c with sp := c.sp + 1, p := Flags.unpack (Memory.read c.mem (stackSlot (c.sp + 1))) } := by
  simp only [plpOp, Cpu.pop_ram, stackAddr_eq_stackSlot]

theorem rtsOp_ram (c : Cpu Memory) :
    rtsOp Bus.ram c =
      { c with
        sp := c.sp + 2
        pc := wordOf (Memory.read c.mem (stackSlot (c.sp + 2))) (Memory.read c.mem (stackSlot (c.sp + 1))) + 1 } := by
  have h : c.sp + 1 + 1 = c.sp + 2 := by bv_omega
  simp only [rtsOp, Cpu.popWord_ram, stackAddr_eq_stackSlot, h]

theorem rtiOp_ram (c : Cpu Memory) :
    rtiOp Bus.ram c =
      { c with
        sp := c.sp + 3
        p := Flags.unpack (Memory.read c.mem (stackSlot (c.sp + 1)))
        pc := wordOf (Memory.read c.mem (stackSlot (c.sp + 3))) (Memory.read c.mem (stackSlot (c.sp + 2))) } := by
  have h2 : c.sp + 1 + 1 = c.sp + 2 := by bv_omega
  have h3 : c.sp + 2 + 1 = c.sp + 3 := by bv_omega
  simp only [rtiOp, Cpu.returnFromHandler_ram, stackAddr_eq_stackSlot, h2, h3]

theorem brkOp_ram (c : Cpu Memory) :
    brkOp Bus.ram c =
      { c with
        mem := Memory.write (Memory.withWordPushed c.mem c.sp (c.pc + 1)) (stackSlot (c.sp - 2)) c.p.pushedByInstruction
        sp := c.sp - 3
        pc := Memory.readWord c.mem Config.irqVector
        p := { c.p with i := true } } := by
  rw [brkOp, Cpu.enterHandler_ram_slots _ _ _ (by decide) (by decide)]

/-- JSR's push, in the terms of claims. -/
theorem Cpu.pushWord_ram_slots (c : Cpu Memory) (w : Word) :
    c.pushWord Bus.ram w = { c with mem := Memory.withWordPushed c.mem c.sp w, sp := c.sp - 2 } := by
  have h : c.sp - 1 - 1 = c.sp - 2 := by bv_omega
  simp only [Cpu.pushWord_ram, Memory.withWordPushed, stackAddr_eq_stackSlot, h]

end Sys2Proof.Machine
end

