-- ==== Sys2Proof/Tests/Slice0.lean ====
section
/-! SUPPORT. The model's own tests. Expected values come from the spec: the table of R300 and the rules for the decode
tests, the vectors of 95_test_vectors.md (each test names its vector) for the steps. Then one witness per obligation
that has hypotheses. -/

namespace Sys2Proof.Tests

open Sys2Proof Sys2Proof.Machine

/-! ## Decoding: every row of R300, its operand bytes 0x84, or 0x34 0x12 for the word 0x1234. -/

/-- Each byte string decodes to the instruction beside it, with nothing left over. -/
def decodesAll (rows : List (List Byte × Instr)) : Bool := rows.all fun r => decode r.1 == .instr r.2 []

theorem test_decode_adc_sbc :
    decodesAll [
      ([0x61, 0x84], .adcIndX 0x84), ([0x65, 0x84], .adcZp 0x84), ([0x69, 0x84], .adcImm 0x84),
      ([0x6D, 0x34, 0x12], .adcAbs 0x1234), ([0x71, 0x84], .adcIndY 0x84), ([0x75, 0x84], .adcZpX 0x84),
      ([0x79, 0x34, 0x12], .adcAbsY 0x1234), ([0x7D, 0x34, 0x12], .adcAbsX 0x1234), ([0xE1, 0x84], .sbcIndX 0x84),
      ([0xE5, 0x84], .sbcZp 0x84), ([0xE9, 0x84], .sbcImm 0x84), ([0xED, 0x34, 0x12], .sbcAbs 0x1234),
      ([0xF1, 0x84], .sbcIndY 0x84), ([0xF5, 0x84], .sbcZpX 0x84), ([0xF9, 0x34, 0x12], .sbcAbsY 0x1234),
      ([0xFD, 0x34, 0x12], .sbcAbsX 0x1234)] = true := by decide

theorem test_decode_compares :
    decodesAll [
      ([0xC1, 0x84], .cmpIndX 0x84), ([0xC5, 0x84], .cmpZp 0x84), ([0xC9, 0x84], .cmpImm 0x84),
      ([0xCD, 0x34, 0x12], .cmpAbs 0x1234), ([0xD1, 0x84], .cmpIndY 0x84), ([0xD5, 0x84], .cmpZpX 0x84),
      ([0xD9, 0x34, 0x12], .cmpAbsY 0x1234), ([0xDD, 0x34, 0x12], .cmpAbsX 0x1234), ([0xE0, 0x84], .cpxImm 0x84),
      ([0xE4, 0x84], .cpxZp 0x84), ([0xEC, 0x34, 0x12], .cpxAbs 0x1234), ([0xC0, 0x84], .cpyImm 0x84),
      ([0xC4, 0x84], .cpyZp 0x84), ([0xCC, 0x34, 0x12], .cpyAbs 0x1234)] = true := by decide

theorem test_decode_logic :
    decodesAll [
      ([0x21, 0x84], .andIndX 0x84), ([0x25, 0x84], .andZp 0x84), ([0x29, 0x84], .andImm 0x84),
      ([0x2D, 0x34, 0x12], .andAbs 0x1234), ([0x31, 0x84], .andIndY 0x84), ([0x35, 0x84], .andZpX 0x84),
      ([0x39, 0x34, 0x12], .andAbsY 0x1234), ([0x3D, 0x34, 0x12], .andAbsX 0x1234), ([0x01, 0x84], .oraIndX 0x84),
      ([0x05, 0x84], .oraZp 0x84), ([0x09, 0x84], .oraImm 0x84), ([0x0D, 0x34, 0x12], .oraAbs 0x1234),
      ([0x11, 0x84], .oraIndY 0x84), ([0x15, 0x84], .oraZpX 0x84), ([0x19, 0x34, 0x12], .oraAbsY 0x1234),
      ([0x1D, 0x34, 0x12], .oraAbsX 0x1234), ([0x41, 0x84], .eorIndX 0x84), ([0x45, 0x84], .eorZp 0x84),
      ([0x49, 0x84], .eorImm 0x84), ([0x4D, 0x34, 0x12], .eorAbs 0x1234), ([0x51, 0x84], .eorIndY 0x84),
      ([0x55, 0x84], .eorZpX 0x84), ([0x59, 0x34, 0x12], .eorAbsY 0x1234), ([0x5D, 0x34, 0x12], .eorAbsX 0x1234)] = true := by decide

theorem test_decode_loads :
    decodesAll [
      ([0xA1, 0x84], .ldaIndX 0x84), ([0xA5, 0x84], .ldaZp 0x84), ([0xA9, 0x84], .ldaImm 0x84),
      ([0xAD, 0x34, 0x12], .ldaAbs 0x1234), ([0xB1, 0x84], .ldaIndY 0x84), ([0xB5, 0x84], .ldaZpX 0x84),
      ([0xB9, 0x34, 0x12], .ldaAbsY 0x1234), ([0xBD, 0x34, 0x12], .ldaAbsX 0x1234), ([0xA2, 0x84], .ldxImm 0x84),
      ([0xA6, 0x84], .ldxZp 0x84), ([0xAE, 0x34, 0x12], .ldxAbs 0x1234), ([0xB6, 0x84], .ldxZpY 0x84),
      ([0xBE, 0x34, 0x12], .ldxAbsY 0x1234), ([0xA0, 0x84], .ldyImm 0x84), ([0xA4, 0x84], .ldyZp 0x84),
      ([0xAC, 0x34, 0x12], .ldyAbs 0x1234), ([0xB4, 0x84], .ldyZpX 0x84), ([0xBC, 0x34, 0x12], .ldyAbsX 0x1234)] = true := by decide

theorem test_decode_bit :
    decodesAll [
      ([0x24, 0x84], .bitZp 0x84), ([0x2C, 0x34, 0x12], .bitAbs 0x1234)] = true := by decide

theorem test_decode_stores :
    decodesAll [
      ([0x81, 0x84], .staIndX 0x84), ([0x85, 0x84], .staZp 0x84), ([0x8D, 0x34, 0x12], .staAbs 0x1234),
      ([0x91, 0x84], .staIndY 0x84), ([0x95, 0x84], .staZpX 0x84), ([0x99, 0x34, 0x12], .staAbsY 0x1234),
      ([0x9D, 0x34, 0x12], .staAbsX 0x1234), ([0x86, 0x84], .stxZp 0x84), ([0x8E, 0x34, 0x12], .stxAbs 0x1234),
      ([0x96, 0x84], .stxZpY 0x84), ([0x84, 0x84], .styZp 0x84), ([0x8C, 0x34, 0x12], .styAbs 0x1234),
      ([0x94, 0x84], .styZpX 0x84)] = true := by decide

theorem test_decode_asl_lsr :
    decodesAll [
      ([0x06, 0x84], .aslZp 0x84), ([0x0A], .aslAcc), ([0x0E, 0x34, 0x12], .aslAbs 0x1234),
      ([0x16, 0x84], .aslZpX 0x84), ([0x1E, 0x34, 0x12], .aslAbsX 0x1234), ([0x46, 0x84], .lsrZp 0x84),
      ([0x4A], .lsrAcc), ([0x4E, 0x34, 0x12], .lsrAbs 0x1234), ([0x56, 0x84], .lsrZpX 0x84),
      ([0x5E, 0x34, 0x12], .lsrAbsX 0x1234)] = true := by decide

theorem test_decode_rol_ror :
    decodesAll [
      ([0x26, 0x84], .rolZp 0x84), ([0x2A], .rolAcc), ([0x2E, 0x34, 0x12], .rolAbs 0x1234),
      ([0x36, 0x84], .rolZpX 0x84), ([0x3E, 0x34, 0x12], .rolAbsX 0x1234), ([0x66, 0x84], .rorZp 0x84),
      ([0x6A], .rorAcc), ([0x6E, 0x34, 0x12], .rorAbs 0x1234), ([0x76, 0x84], .rorZpX 0x84),
      ([0x7E, 0x34, 0x12], .rorAbsX 0x1234)] = true := by decide

theorem test_decode_inc_dec :
    decodesAll [
      ([0xE6, 0x84], .incZp 0x84), ([0xEE, 0x34, 0x12], .incAbs 0x1234), ([0xF6, 0x84], .incZpX 0x84),
      ([0xFE, 0x34, 0x12], .incAbsX 0x1234), ([0xC6, 0x84], .decZp 0x84), ([0xCE, 0x34, 0x12], .decAbs 0x1234),
      ([0xD6, 0x84], .decZpX 0x84), ([0xDE, 0x34, 0x12], .decAbsX 0x1234)] = true := by decide

theorem test_decode_branches :
    decodesAll [
      ([0x90, 0x84], .bcc 0x84), ([0xB0, 0x84], .bcs 0x84), ([0xF0, 0x84], .beq 0x84), ([0xD0, 0x84], .bne 0x84),
      ([0x30, 0x84], .bmi 0x84), ([0x10, 0x84], .bpl 0x84), ([0x50, 0x84], .bvc 0x84), ([0x70, 0x84], .bvs 0x84)] = true := by decide

theorem test_decode_jumps :
    decodesAll [
      ([0x4C, 0x34, 0x12], .jmpAbs 0x1234), ([0x6C, 0x34, 0x12], .jmpInd 0x1234), ([0x20, 0x34, 0x12], .jsr 0x1234)] = true := by decide

theorem test_decode_implied_control :
    decodesAll [
      ([0x00], .brk), ([0x60], .rts), ([0x40], .rti), ([0xEA], .nop)] = true := by decide

theorem test_decode_flag_instructions :
    decodesAll [
      ([0x38], .sec), ([0x18], .clc), ([0xF8], .sed), ([0xD8], .cld), ([0x78], .sei), ([0x58], .cli), ([0xB8], .clv)] = true := by decide

theorem test_decode_transfers :
    decodesAll [
      ([0xAA], .tax), ([0xA8], .tay), ([0x8A], .txa), ([0x98], .tya), ([0xBA], .tsx), ([0x9A], .txs)] = true := by decide

theorem test_decode_stack_instructions :
    decodesAll [
      ([0x48], .pha), ([0x08], .php), ([0x68], .pla), ([0x28], .plp)] = true := by decide

theorem test_decode_index_registers :
    decodesAll [
      ([0xE8], .inx), ([0xC8], .iny), ([0xCA], .dex), ([0x88], .dey)] = true := by decide

/-- Words written out bit by bit, the low byte of a word first (R303): ADC #$42, SBC $10, CMP ($10),Y, ASL A, INC $0300,
BNE -4, BIT $40, TAX, PHA, JMP ($30FF), LDA $4402,X, STA ($20),Y, EOR #$5A. -/
theorem test_decode_bits :
    decodesAll [
      ([0b01101001, 0b01000010], .adcImm 0x42), ([0b11100101, 0b00010000], .sbcZp 0x10),
      ([0b11010001, 0b00010000], .cmpIndY 0x10), ([0b00001010], .aslAcc),
      ([0b11101110, 0b00000000, 0b00000011], .incAbs 0x0300), ([0b11010000, 0b11111100], .bne 0xFC),
      ([0b00100100, 0b01000000], .bitZp 0x40), ([0b10101010], .tax), ([0b01001000], .pha),
      ([0b01101100, 0b11111111, 0b00110000], .jmpInd 0x30FF),
      ([0b10111101, 0b00000010, 0b01000100], .ldaAbsX 0x4402), ([0b10010001, 0b00100000], .staIndY 0x20),
      ([0b01001001, 0b01011010], .eorImm 0x5A)] = true := by decide

/-- BRK is one byte: what follows it is left over (R302, D13). -/
theorem test_decode_brk_leaves_padding : decode [0x00, 0xAA] = .instr .brk [0xAA] := by decide

theorem test_decode_invalid : decode [0x02] = .invalid 0x02 ∧ decode [0xFF, 0x00] = .invalid 0xFF := by decide

theorem test_decode_truncated : decode [0xA9] = .truncated ∧ decode [0xBD, 0x02] = .truncated := by decide

theorem test_encode_little_endian : encode (.ldaAbsX 0x4402) = [0xBD, 0x02, 0x44] := by decide

/-- The table's numbering: the first byte in bits 7..0, the second in bits 15..8, the third in bits 23..16. -/
theorem test_decodeTableWord :
    decodeTableWord 24 0x4402BD = some (.ldaAbsX 0x4402) ∧ decodeTableWord 8 0xEA = some .nop ∧
    decodeTableWord 8 0xA9 = some (.ldaImm 0) ∧ decodeTableWord 8 0x02 = none := by decide

/-! ## WellFormed: a form of each class that the table has, and forms that it does not have. -/

theorem test_wellFormed_accepts :
    Form.wellFormed (.read .lda (.memory (.absoluteX 0x4402))) = true ∧
    Form.wellFormed (.store .stx (.zeroPageY 0xFF)) = true ∧ Form.wellFormed (.modify .asl .accumulator) = true ∧
    Form.wellFormed (.jump (.indirect 0x30FF)) = true := by decide

theorem test_wellFormed_refuses_reads :
    Form.wellFormed (.read .bit (.immediate 1)) = false ∧
    Form.wellFormed (.read .cpx (.memory (.zeroPageX 1))) = false ∧
    Form.wellFormed (.read .ldx (.memory (.zeroPageX 1))) = false ∧
    Form.wellFormed (.read .ldy (.memory (.absoluteY 1))) = false ∧
    Form.wellFormed (.read .adc (.memory (.zeroPageY 1))) = false ∧
    Form.wellFormed (.read .lda (.memory (.indirect 1))) = false := by decide

theorem test_wellFormed_refuses_stores :
    Form.wellFormed (.store .sta (.indirect 1)) = false ∧ Form.wellFormed (.store .stx (.zeroPageX 1)) = false ∧
    Form.wellFormed (.store .sty (.absoluteX 1)) = false := by decide

theorem test_wellFormed_refuses_modifies :
    Form.wellFormed (.modify .inc .accumulator) = false ∧
    Form.wellFormed (.modify .rol (.memory (.absoluteY 1))) = false ∧
    Form.wellFormed (.modify .dec (.memory (.indexedIndirectX 1))) = false := by decide

theorem test_wellFormed_refuses_jumps :
    Form.wellFormed (.jump (.zeroPage 1)) = false ∧ Form.wellFormed (.jump (.absoluteX 1)) = false := by decide

/-! ## Steps: the vectors of 95_test_vectors.md. -/

/-- Memory with bytes put at addresses. -/
def poked (m : Memory) (cells : List (Word × Byte)) : Memory := cells.foldl (fun acc c => Memory.write acc c.1 c.2) m

/-- The default start state of the vectors, with PC, the bytes at PC, and further memory cells. -/
def placed (pc : Word) (bytes : List Byte) (cells : List (Word × Byte)) : State :=
  { State.reset with
    pc := pc
    mem := poked [] ((List.range bytes.length).zipWith (fun k b => (pc + BitVec.ofNat 16 k, b)) bytes ++ cells) }

/-- One step from `s` gives exactly `change s`. -/
def stepsTo (s : State) (change : State → State) : Bool :=
  match step s with
  | .next t => decide (t = change s)
  | _ => false

/-- V-ADC-5 (R501). -/
theorem test_adc_5 :
    stepsTo ({ placed 0x0200 [0x69, 0x00] [] with a := 0x7F, p := Flags.unpack 0x25 })
      (fun s => { s with a := 0x80, p := Flags.unpack 0xE4, pc := 0x0202, cycles := 2 }) = true := by decide

/-- V-ADC-7 (R501). -/
theorem test_adc_7 :
    stepsTo ({ placed 0x0200 [0x69, 0x01] [] with a := 0x09, p := Flags.unpack 0x2C })
      (fun s => { s with a := 0x0A, pc := 0x0202, cycles := 2 }) = true := by decide

/-- V-ADC-8 (R501). -/
theorem test_adc_8 :
    stepsTo ({ placed 0x0200 [0x65, 0x10] [(0x0010, 0x01)] with a := 0x01 })
      (fun s => { s with a := 0x02, pc := 0x0202, cycles := 3 }) = true := by decide

/-- V-ADC-9 (R501). -/
theorem test_adc_9 :
    stepsTo ({ placed 0x0200 [0x71, 0x10] [(0x0010, 0xFF), (0x0011, 0x20), (0x2100, 0x05)] with a := 0x01, y := 0x01 })
      (fun s => { s with a := 0x06, pc := 0x0202, cycles := 6 }) = true := by decide

/-- V-ADC-10 (R501). -/
theorem test_adc_10 :
    stepsTo ({ placed 0x0200 [0x71, 0x10] [(0x0010, 0xFE), (0x0011, 0x20), (0x20FF, 0x05)] with a := 0x01, y := 0x01 })
      (fun s => { s with a := 0x06, pc := 0x0202, cycles := 5 }) = true := by decide

/-- V-SBC-2 (R502). -/
theorem test_sbc_2 :
    stepsTo ({ placed 0x0200 [0xE9, 0x01] [] with a := 0x00, p := Flags.unpack 0x25 })
      (fun s => { s with a := 0xFF, p := Flags.unpack 0xA4, pc := 0x0202, cycles := 2 }) = true := by decide

/-- V-SBC-3 (R502). -/
theorem test_sbc_3 :
    stepsTo ({ placed 0x0200 [0xE9, 0x01] [] with a := 0x80, p := Flags.unpack 0x25 })
      (fun s => { s with a := 0x7F, p := Flags.unpack 0x65, pc := 0x0202, cycles := 2 }) = true := by decide

/-- V-CMP-2 (R504). -/
theorem test_cmp_2 :
    stepsTo ({ placed 0x0200 [0xC9, 0x41] [] with a := 0x40 })
      (fun s => { s with p := Flags.unpack 0xA4, pc := 0x0202, cycles := 2 }) = true := by decide

/-- V-CMP-3 (R504). -/
theorem test_cmp_3 :
    stepsTo ({ placed 0x0200 [0xC9, 0x10] [] with a := 0x10, p := Flags.unpack 0x64 })
      (fun s => { s with p := Flags.unpack 0x67, pc := 0x0202, cycles := 2 }) = true := by decide

/-- V-CMP-4 (R504). -/
theorem test_cmp_4 :
    stepsTo ({ placed 0x0200 [0xDD, 0xFF, 0x12] [(0x1300, 0x06)] with a := 0x05, x := 0x01 })
      (fun s => { s with p := Flags.unpack 0xA4, pc := 0x0203, cycles := 5 }) = true := by decide

/-- V-CPX-1 (R505). -/
theorem test_cpx_1 :
    stepsTo ({ placed 0x0200 [0xE0, 0xFF] [] with x := 0x00 })
      (fun s => { s with pc := 0x0202, cycles := 2 }) = true := by decide

/-- V-CPX-2 (R505). -/
theorem test_cpx_2 :
    stepsTo ({ placed 0x0200 [0xE4, 0x20] [(0x0020, 0x03)] with x := 0x05 })
      (fun s => { s with p := Flags.unpack 0x25, pc := 0x0202, cycles := 3 }) = true := by decide

/-- V-CPY-1 (R506). -/
theorem test_cpy_1 :
    stepsTo ({ placed 0x0200 [0xC0, 0x00] [] with y := 0xFF })
      (fun s => { s with p := Flags.unpack 0xA5, pc := 0x0202, cycles := 2 }) = true := by decide

/-- V-CPY-2 (R506). -/
theorem test_cpy_2 :
    stepsTo ({ placed 0x0200 [0xCC, 0x34, 0x12] [(0x1234, 0x03)] with y := 0x02 })
      (fun s => { s with p := Flags.unpack 0xA4, pc := 0x0203, cycles := 4 }) = true := by decide

/-- V-ASL-1 (R600). -/
theorem test_asl_1 :
    stepsTo ({ placed 0x0200 [0x0A] [] with a := 0x81 })
      (fun s => { s with a := 0x02, p := Flags.unpack 0x25, pc := 0x0201, cycles := 2 }) = true := by decide

/-- V-ASL-3 (R600). -/
theorem test_asl_3 :
    stepsTo ({ placed 0x0200 [0x16, 0xF0] [(0x0010, 0x40)] with x := 0x20 })
      (fun s => { s with p := Flags.unpack 0xA4, pc := 0x0202, cycles := 6, mem := poked s.mem [(0x0010, 0x80)] }) = true := by decide

/-- V-LSR-1 (R601). -/
theorem test_lsr_1 :
    stepsTo (placed 0x0200 [0x46, 0x10] [(0x0010, 0x03)])
      (fun s => { s with p := Flags.unpack 0x25, pc := 0x0202, cycles := 5, mem := poked s.mem [(0x0010, 0x01)] }) = true := by decide

/-- V-LSR-2 (R601). -/
theorem test_lsr_2 :
    stepsTo ({ placed 0x0200 [0x4A] [] with a := 0x01 })
      (fun s => { s with a := 0x00, p := Flags.unpack 0x27, pc := 0x0201, cycles := 2 }) = true := by decide

/-- V-ROL-1 (R602). -/
theorem test_rol_1 :
    stepsTo ({ placed 0x0200 [0x2A] [] with a := 0x40, p := Flags.unpack 0x25 })
      (fun s => { s with a := 0x81, p := Flags.unpack 0xA4, pc := 0x0201, cycles := 2 }) = true := by decide

/-- V-ROL-3 (R602). -/
theorem test_rol_3 :
    stepsTo ({ placed 0x0200 [0x3E, 0x34, 0x12] [(0x1235, 0xFF)] with x := 0x01, p := Flags.unpack 0x25 })
      (fun s => { s with p := Flags.unpack 0xA5, pc := 0x0203, cycles := 7, mem := poked s.mem [(0x1235, 0xFF)] }) = true := by decide

/-- V-ROR-1 (R603). -/
theorem test_ror_1 :
    stepsTo ({ placed 0x0200 [0x6A] [] with a := 0x01, p := Flags.unpack 0x25 })
      (fun s => { s with a := 0x80, p := Flags.unpack 0xA5, pc := 0x0201, cycles := 2 }) = true := by decide

/-- V-ROR-3 (R603). -/
theorem test_ror_3 :
    stepsTo ({ placed 0x0200 [0x6E, 0x34, 0x12] [(0x1234, 0x02)] with p := Flags.unpack 0x25 })
      (fun s => { s with p := Flags.unpack 0xA4, pc := 0x0203, cycles := 6, mem := poked s.mem [(0x1234, 0x81)] }) = true := by decide

/-- V-INC-1 (R604). -/
theorem test_inc_1 :
    stepsTo ({ placed 0x0200 [0xE6, 0xFF] [(0x00FF, 0xFF)] with p := Flags.unpack 0x65 })
      (fun s => { s with p := Flags.unpack 0x67, pc := 0x0202, cycles := 5, mem := poked s.mem [(0x00FF, 0x00)] }) = true := by decide

/-- V-INC-2 (R604). -/
theorem test_inc_2 :
    stepsTo (placed 0x0200 [0xEE, 0x00, 0x03] [(0x0300, 0x7F)])
      (fun s => { s with p := Flags.unpack 0xA4, pc := 0x0203, cycles := 6, mem := poked s.mem [(0x0300, 0x80)] }) = true := by decide

/-- V-DEC-1 (R605). -/
theorem test_dec_1 :
    stepsTo ({ placed 0x0200 [0xDE, 0xFF, 0x02] [(0x0300, 0x00)] with x := 0x01 })
      (fun s => { s with p := Flags.unpack 0xA4, pc := 0x0203, cycles := 7, mem := poked s.mem [(0x0300, 0xFF)] }) = true := by decide

/-- V-DEC-2 (R605). -/
theorem test_dec_2 :
    stepsTo (placed 0x0200 [0xC6, 0x10] [(0x0010, 0x01)])
      (fun s => { s with p := Flags.unpack 0x26, pc := 0x0202, cycles := 5, mem := poked s.mem [(0x0010, 0x00)] }) = true := by decide

/-- V-INX-1 (R606). -/
theorem test_inx_1 :
    stepsTo ({ placed 0x0200 [0xE8] [] with x := 0xFF })
      (fun s => { s with x := 0x00, p := Flags.unpack 0x26, pc := 0x0201, cycles := 2 }) = true := by decide

/-- V-INY-1 (R607). -/
theorem test_iny_1 :
    stepsTo ({ placed 0x0200 [0xC8] [] with y := 0x7F })
      (fun s => { s with y := 0x80, p := Flags.unpack 0xA4, pc := 0x0201, cycles := 2 }) = true := by decide

/-- V-DEX-1 (R608). -/
theorem test_dex_1 :
    stepsTo ({ placed 0x0200 [0xCA] [] with x := 0x00 })
      (fun s => { s with x := 0xFF, p := Flags.unpack 0xA4, pc := 0x0201, cycles := 2 }) = true := by decide

/-- V-DEY-1 (R609). -/
theorem test_dey_1 :
    stepsTo ({ placed 0x0200 [0x88] [] with y := 0x01 })
      (fun s => { s with y := 0x00, p := Flags.unpack 0x26, pc := 0x0201, cycles := 2 }) = true := by decide

/-- V-BCC-1 (R701). -/
theorem test_bcc_1 :
    stepsTo (placed 0x0300 [0x90, 0x10] [])
      (fun s => { s with pc := 0x0312, cycles := 3 }) = true := by decide

/-- V-BCC-2 (R701). -/
theorem test_bcc_2 :
    stepsTo ({ placed 0x0300 [0x90, 0x10] [] with p := Flags.unpack 0x25 })
      (fun s => { s with pc := 0x0302, cycles := 2 }) = true := by decide

/-- V-BCS-1 (R702). -/
theorem test_bcs_1 :
    stepsTo ({ placed 0x0300 [0xB0, 0x10] [] with p := Flags.unpack 0x25 })
      (fun s => { s with pc := 0x0312, cycles := 3 }) = true := by decide

/-- V-BEQ-1 (R703). -/
theorem test_beq_1 :
    stepsTo ({ placed 0x0300 [0xF0, 0xFE] [] with p := Flags.unpack 0x26 })
      (fun s => { s with pc := 0x0300, cycles := 3 }) = true := by decide

/-- V-BEQ-3 (R703). -/
theorem test_beq_3 :
    stepsTo ({ placed 0x00FE [0xF0, 0x00] [] with p := Flags.unpack 0x26 })
      (fun s => { s with pc := 0x0100, cycles := 3 }) = true := by decide

/-- V-BNE-1 (R704). -/
theorem test_bne_1 :
    stepsTo (placed 0x0200 [0xD0, 0xFC] [])
      (fun s => { s with pc := 0x01FE, cycles := 4 }) = true := by decide

/-- V-BNE-2 (R704). -/
theorem test_bne_2 :
    stepsTo (placed 0xFFF0 [0xD0, 0x7F] [])
      (fun s => { s with pc := 0x0071, cycles := 4 }) = true := by decide

/-- V-BMI-1 (R705). -/
theorem test_bmi_1 :
    stepsTo ({ placed 0x04F0 [0x30, 0x20] [] with p := Flags.unpack 0xA4 })
      (fun s => { s with pc := 0x0512, cycles := 4 }) = true := by decide

/-- V-BPL-1 (R706). -/
theorem test_bpl_1 :
    stepsTo (placed 0x0300 [0x10, 0x80] [])
      (fun s => { s with pc := 0x0282, cycles := 4 }) = true := by decide

/-- V-BPL-2 (R706). -/
theorem test_bpl_2 :
    stepsTo ({ placed 0x0300 [0x10, 0x80] [] with p := Flags.unpack 0xA4 })
      (fun s => { s with pc := 0x0302, cycles := 2 }) = true := by decide

/-- V-BVC-1 (R707). -/
theorem test_bvc_1 :
    stepsTo (placed 0x0300 [0x50, 0x7F] [])
      (fun s => { s with pc := 0x0381, cycles := 3 }) = true := by decide

/-- V-BVS-1 (R708). -/
theorem test_bvs_1 :
    stepsTo ({ placed 0x0300 [0x70, 0x7F] [] with p := Flags.unpack 0x64 })
      (fun s => { s with pc := 0x0381, cycles := 3 }) = true := by decide

/-- V-BVS-2 (R708). -/
theorem test_bvs_2 :
    stepsTo (placed 0x0300 [0x70, 0x7F] [])
      (fun s => { s with pc := 0x0302, cycles := 2 }) = true := by decide

/-- V-BIT-1 (R710). -/
theorem test_bit_1 :
    stepsTo ({ placed 0x0200 [0x24, 0x40] [(0x0040, 0x41)] with a := 0x01 })
      (fun s => { s with p := Flags.unpack 0x64, pc := 0x0202, cycles := 3 }) = true := by decide

/-- V-BIT-2 (R710). -/
theorem test_bit_2 :
    stepsTo ({ placed 0x0200 [0x2C, 0x34, 0x12] [(0x1234, 0xC0)] with a := 0x3F, p := Flags.unpack 0x25 })
      (fun s => { s with p := Flags.unpack 0xE7, pc := 0x0203, cycles := 4 }) = true := by decide

/-- V-SEC-1 (R720). -/
theorem test_sec_1 :
    stepsTo (placed 0x0200 [0x38] [])
      (fun s => { s with p := Flags.unpack 0x25, pc := 0x0201, cycles := 2 }) = true := by decide

/-- V-CLC-1 (R721). -/
theorem test_clc_1 :
    stepsTo ({ placed 0x0200 [0x18] [] with p := Flags.unpack 0x25 })
      (fun s => { s with p := Flags.unpack 0x24, pc := 0x0201, cycles := 2 }) = true := by decide

/-- V-SED-1 (R722). -/
theorem test_sed_1 :
    stepsTo (placed 0x0200 [0xF8] [])
      (fun s => { s with p := Flags.unpack 0x2C, pc := 0x0201, cycles := 2 }) = true := by decide

/-- V-CLD-1 (R723). -/
theorem test_cld_1 :
    stepsTo ({ placed 0x0200 [0xD8] [] with p := Flags.unpack 0x2C })
      (fun s => { s with p := Flags.unpack 0x24, pc := 0x0201, cycles := 2 }) = true := by decide

/-- V-SEI-1 (R724). -/
theorem test_sei_1 :
    stepsTo ({ placed 0x0200 [0x78] [] with p := Flags.unpack 0x20 })
      (fun s => { s with p := Flags.unpack 0x24, pc := 0x0201, cycles := 2 }) = true := by decide

/-- V-CLI-1 (R725). -/
theorem test_cli_1 :
    stepsTo (placed 0x0200 [0x58] [])
      (fun s => { s with p := Flags.unpack 0x20, pc := 0x0201, cycles := 2 }) = true := by decide

/-- V-CLV-1 (R726). -/
theorem test_clv_1 :
    stepsTo ({ placed 0x0200 [0xB8] [] with p := Flags.unpack 0x64 })
      (fun s => { s with p := Flags.unpack 0x24, pc := 0x0201, cycles := 2 }) = true := by decide

/-- V-TAX-1 (R800). -/
theorem test_tax_1 :
    stepsTo ({ placed 0x0200 [0xAA] [] with a := 0x80 })
      (fun s => { s with x := 0x80, p := Flags.unpack 0xA4, pc := 0x0201, cycles := 2 }) = true := by decide

/-- V-TAY-1 (R801). -/
theorem test_tay_1 :
    stepsTo ({ placed 0x0200 [0xA8] [] with a := 0x00, y := 0x33 })
      (fun s => { s with y := 0x00, p := Flags.unpack 0x26, pc := 0x0201, cycles := 2 }) = true := by decide

/-- V-TXA-1 (R802). -/
theorem test_txa_1 :
    stepsTo ({ placed 0x0200 [0x8A] [] with x := 0xFF })
      (fun s => { s with a := 0xFF, p := Flags.unpack 0xA4, pc := 0x0201, cycles := 2 }) = true := by decide

/-- V-TYA-1 (R803). -/
theorem test_tya_1 :
    stepsTo ({ placed 0x0200 [0x98] [] with y := 0x7F, a := 0x80, p := Flags.unpack 0xA4 })
      (fun s => { s with a := 0x7F, p := Flags.unpack 0x24, pc := 0x0201, cycles := 2 }) = true := by decide

/-- V-TSX-1 (R804). -/
theorem test_tsx_1 :
    stepsTo (placed 0x0200 [0xBA] [])
      (fun s => { s with x := 0xFD, p := Flags.unpack 0xA4, pc := 0x0201, cycles := 2 }) = true := by decide

/-- V-TXS-1 (R805). -/
theorem test_txs_1 :
    stepsTo ({ placed 0x0200 [0x9A] [] with x := 0x00 })
      (fun s => { s with sp := 0x00, pc := 0x0201, cycles := 2 }) = true := by decide

/-- V-PHA-1 (R810). -/
theorem test_pha_1 :
    stepsTo ({ placed 0x0200 [0x48] [] with a := 0x42 })
      (fun s => { s with sp := 0xFC, pc := 0x0201, cycles := 3, mem := poked s.mem [(0x01FD, 0x42)] }) = true := by decide

/-- V-PHA-2 (R810). -/
theorem test_pha_2 :
    stepsTo ({ placed 0x0200 [0x48] [] with a := 0x42, sp := 0x00 })
      (fun s => { s with sp := 0xFF, pc := 0x0201, cycles := 3, mem := poked s.mem [(0x0100, 0x42)] }) = true := by decide

/-- V-PHP-1 (R811). -/
theorem test_php_1 :
    stepsTo (placed 0x0200 [0x08] [])
      (fun s => { s with sp := 0xFC, pc := 0x0201, cycles := 3, mem := poked s.mem [(0x01FD, 0x34)] }) = true := by decide

/-- V-PHP-2 (R811). -/
theorem test_php_2 :
    stepsTo ({ placed 0x0200 [0x08] [] with p := Flags.unpack 0x00 })
      (fun s => { s with sp := 0xFC, pc := 0x0201, cycles := 3, mem := poked s.mem [(0x01FD, 0x30)] }) = true := by decide

/-- V-PLA-1 (R812). -/
theorem test_pla_1 :
    stepsTo ({ placed 0x0200 [0x68] [(0x01FD, 0x80)] with sp := 0xFC })
      (fun s => { s with a := 0x80, sp := 0xFD, p := Flags.unpack 0xA4, pc := 0x0201, cycles := 4 }) = true := by decide

/-- V-PLA-2 (R812). -/
theorem test_pla_2 :
    stepsTo ({ placed 0x0200 [0x68] [(0x0100, 0x00)] with sp := 0xFF })
      (fun s => { s with sp := 0x00, p := Flags.unpack 0x26, pc := 0x0201, cycles := 4 }) = true := by decide

/-- V-PLP-1 (R813). -/
theorem test_plp_1 :
    stepsTo ({ placed 0x0200 [0x28] [(0x01FD, 0x00)] with sp := 0xFC })
      (fun s => { s with sp := 0xFD, p := Flags.unpack 0x00, pc := 0x0201, cycles := 4 }) = true := by decide

/-- V-PLP-2 (R813). -/
theorem test_plp_2 :
    stepsTo ({ placed 0x0200 [0x28] [(0x01FD, 0xFF)] with sp := 0xFC })
      (fun s => { s with sp := 0xFD, p := Flags.unpack 0xFF, pc := 0x0201, cycles := 4 }) = true := by decide

/-- V-JMP-1 (R900). -/
theorem test_jmp_1 :
    stepsTo (placed 0x0200 [0x4C, 0x34, 0x12] [])
      (fun s => { s with pc := 0x1234, cycles := 3 }) = true := by decide

/-- V-JMP-2 (R900). -/
theorem test_jmp_2 :
    stepsTo (placed 0x0200 [0x6C, 0xFF, 0x30] [(0x30FF, 0x80), (0x3000, 0x50), (0x3100, 0x40)])
      (fun s => { s with pc := 0x5080, cycles := 5 }) = true := by decide

/-- V-JMP-3 (R900). -/
theorem test_jmp_3 :
    stepsTo (placed 0x0200 [0x6C, 0x00, 0x30] [(0x3000, 0x80), (0x3001, 0x50)])
      (fun s => { s with pc := 0x5080, cycles := 5 }) = true := by decide

/-- V-JSR-1 (R901). -/
theorem test_jsr_1 :
    stepsTo (placed 0x0600 [0x20, 0x42, 0x42] [])
      (fun s => { s with sp := 0xFB, pc := 0x4242, cycles := 6, mem := poked s.mem [(0x01FC, 0x02), (0x01FD, 0x06)] }) = true := by decide

/-- V-JSR-2 (R901). -/
theorem test_jsr_2 :
    stepsTo ({ placed 0x0600 [0x20, 0x42, 0x42] [] with sp := 0x00 })
      (fun s => { s with sp := 0xFE, pc := 0x4242, cycles := 6, mem := poked s.mem [(0x0100, 0x06), (0x01FF, 0x02)] }) = true := by decide

/-- V-RTS-1 (R902). -/
theorem test_rts_1 :
    stepsTo ({ placed 0x4242 [0x60] [(0x01FC, 0x02), (0x01FD, 0x06)] with sp := 0xFB })
      (fun s => { s with sp := 0xFD, pc := 0x0603, cycles := 6 }) = true := by decide

/-- V-RTS-2 (R902). -/
theorem test_rts_2 :
    stepsTo ({ placed 0x4242 [0x60] [(0x01FC, 0xFF), (0x01FD, 0xFF)] with sp := 0xFB })
      (fun s => { s with sp := 0xFD, pc := 0x0000, cycles := 6 }) = true := by decide

/-- V-BRK-1 (R903). -/
theorem test_brk_1 :
    stepsTo ({ placed 0x0400 [0x00, 0xAA] [(0xFFFE, 0x00), (0xFFFF, 0x90)] with p := Flags.unpack 0x20 })
      (fun s => { s with sp := 0xFA, p := Flags.unpack 0x24, pc := 0x9000, cycles := 7, mem := poked s.mem [(0x01FB, 0x30), (0x01FC, 0x02), (0x01FD, 0x04)] }) = true := by decide

/-- V-BRK-2 (R903). -/
theorem test_brk_2 :
    stepsTo ({ placed 0x0400 [0x00] [(0xFFFE, 0x00), (0xFFFF, 0x90)] with p := Flags.unpack 0x2F })
      (fun s => { s with sp := 0xFA, pc := 0x9000, cycles := 7, mem := poked s.mem [(0x01FB, 0x3F), (0x01FC, 0x02), (0x01FD, 0x04)] }) = true := by decide

/-- V-RTI-1 (R904). -/
theorem test_rti_1 :
    stepsTo ({ placed 0x9000 [0x40] [(0x01FB, 0x30), (0x01FC, 0x02), (0x01FD, 0x04)] with sp := 0xFA })
      (fun s => { s with sp := 0xFD, p := Flags.unpack 0x30, pc := 0x0402, cycles := 6 }) = true := by decide

/-- V-RTI-2 (R904). -/
theorem test_rti_2 :
    stepsTo ({ placed 0x9000 [0x40] [(0x01FB, 0x00), (0x01FC, 0x02), (0x01FD, 0x04)] with sp := 0xFA })
      (fun s => { s with sp := 0xFD, p := Flags.unpack 0x00, pc := 0x0402, cycles := 6 }) = true := by decide

/-- V-NOP-1 (R905). -/
theorem test_nop_1 :
    stepsTo (placed 0x0200 [0xEA] [])
      (fun s => { s with pc := 0x0201, cycles := 2 }) = true := by decide

/-- V-LDA-1 (R1000). -/
theorem test_lda_1 :
    stepsTo (placed 0x0200 [0xA9, 0x00] [])
      (fun s => { s with a := 0x00, p := Flags.unpack 0x26, pc := 0x0202, cycles := 2 }) = true := by decide

/-- V-LDA-2 (R1000). -/
theorem test_lda_2 :
    stepsTo (placed 0x0200 [0xA9, 0x84] [])
      (fun s => { s with a := 0x84, p := Flags.unpack 0xA4, pc := 0x0202, cycles := 2 }) = true := by decide

/-- V-LDA-3 (R1000, R418). -/
theorem test_lda_3 :
    stepsTo ({ placed 0x0200 [0xBD, 0x02, 0x44] [(0x4501, 0x5A)] with x := 0xFF })
      (fun s => { s with a := 0x5A, pc := 0x0203, cycles := 5 }) = true := by decide

/-- V-LDA-5 (R1000, R421). -/
theorem test_lda_5 :
    stepsTo ({ placed 0x0200 [0xA1, 0xFF] [(0x00FF, 0x34), (0x0000, 0x12), (0x0100, 0x99), (0x1234, 0x77)] with x := 0x00 })
      (fun s => { s with a := 0x77, pc := 0x0202, cycles := 6 }) = true := by decide

/-- V-LDA-6 (R1000, R421). -/
theorem test_lda_6 :
    stepsTo ({ placed 0x0200 [0xA1, 0xFF] [(0x0004, 0x00), (0x0005, 0x30), (0x3000, 0x01)] with x := 0x05 })
      (fun s => { s with a := 0x01, pc := 0x0202, cycles := 6 }) = true := by decide

/-- V-LDA-7 (R1000, R422). -/
theorem test_lda_7 :
    stepsTo ({ placed 0x0200 [0xB1, 0xFF] [(0x00FF, 0xF8), (0x0000, 0x02), (0x0308, 0x66)] with y := 0x10 })
      (fun s => { s with a := 0x66, pc := 0x0202, cycles := 6 }) = true := by decide

/-- V-LDA-8 (R1000, R418). -/
theorem test_lda_8 :
    stepsTo ({ placed 0x0200 [0xBD, 0xFF, 0xFF] [(0x0000, 0x44)] with x := 0x01 })
      (fun s => { s with a := 0x44, pc := 0x0203, cycles := 5 }) = true := by decide

/-- V-LDA-9 (R1000, R415). -/
theorem test_lda_9 :
    stepsTo ({ placed 0x0200 [0xB5, 0xF0] [(0x0010, 0x80)] with x := 0x20 })
      (fun s => { s with a := 0x80, p := Flags.unpack 0xA4, pc := 0x0202, cycles := 4 }) = true := by decide

/-- V-LDX-1 (R1001, R416). -/
theorem test_ldx_1 :
    stepsTo ({ placed 0x0200 [0xB6, 0xF0] [(0x0010, 0x00)] with y := 0x20 })
      (fun s => { s with p := Flags.unpack 0x26, pc := 0x0202, cycles := 4 }) = true := by decide

/-- V-LDX-2 (R1001, R419). -/
theorem test_ldx_2 :
    stepsTo ({ placed 0x0200 [0xBE, 0xFF, 0x12] [(0x1300, 0x80)] with y := 0x01 })
      (fun s => { s with x := 0x80, p := Flags.unpack 0xA4, pc := 0x0203, cycles := 5 }) = true := by decide

/-- V-LDY-1 (R1002). -/
theorem test_ldy_1 :
    stepsTo (placed 0x0200 [0xAC, 0x34, 0x12] [(0x1234, 0xFF)])
      (fun s => { s with y := 0xFF, p := Flags.unpack 0xA4, pc := 0x0203, cycles := 4 }) = true := by decide

/-- V-LDY-2 (R1002). -/
theorem test_ldy_2 :
    stepsTo ({ placed 0x0200 [0xBC, 0x00, 0x13] [(0x1301, 0x01)] with x := 0x01 })
      (fun s => { s with y := 0x01, pc := 0x0203, cycles := 4 }) = true := by decide

/-- V-STA-1 (R1003, R422). -/
theorem test_sta_1 :
    stepsTo ({ placed 0x0200 [0x91, 0x20] [(0x0020, 0xF8), (0x0021, 0x02)] with a := 0x55, y := 0x10 })
      (fun s => { s with pc := 0x0202, cycles := 6, mem := poked s.mem [(0x0308, 0x55)] }) = true := by decide

/-- V-STA-2 (R1003). -/
theorem test_sta_2 :
    stepsTo ({ placed 0x0200 [0x9D, 0xFF, 0x12] [] with a := 0x55, x := 0x01 })
      (fun s => { s with pc := 0x0203, cycles := 5, mem := poked s.mem [(0x1300, 0x55)] }) = true := by decide

/-- V-STA-4 (R1003). -/
theorem test_sta_4 :
    stepsTo ({ placed 0x0200 [0x85, 0x10] [] with a := 0x55, p := Flags.unpack 0xA6 })
      (fun s => { s with pc := 0x0202, cycles := 3, mem := poked s.mem [(0x0010, 0x55)] }) = true := by decide

/-- V-STX-1 (R1004). -/
theorem test_stx_1 :
    stepsTo ({ placed 0x0200 [0x96, 0xFF] [] with x := 0x09, y := 0x01 })
      (fun s => { s with pc := 0x0202, cycles := 4, mem := poked s.mem [(0x0000, 0x09)] }) = true := by decide

/-- V-STY-1 (R1005). -/
theorem test_sty_1 :
    stepsTo ({ placed 0x0200 [0x8C, 0x00, 0x03] [] with y := 0x0A })
      (fun s => { s with pc := 0x0203, cycles := 4, mem := poked s.mem [(0x0300, 0x0A)] }) = true := by decide

/-- V-AND-1 (R1006). -/
theorem test_and_1 :
    stepsTo ({ placed 0x0200 [0x29, 0x3C] [] with a := 0xF0 })
      (fun s => { s with a := 0x30, pc := 0x0202, cycles := 2 }) = true := by decide

/-- V-AND-2 (R1006). -/
theorem test_and_2 :
    stepsTo ({ placed 0x0200 [0x29, 0x0F] [] with a := 0xF0 })
      (fun s => { s with a := 0x00, p := Flags.unpack 0x26, pc := 0x0202, cycles := 2 }) = true := by decide

/-- V-ORA-1 (R1007). -/
theorem test_ora_1 :
    stepsTo ({ placed 0x0200 [0x09, 0x80] [] with a := 0x01 })
      (fun s => { s with a := 0x81, p := Flags.unpack 0xA4, pc := 0x0202, cycles := 2 }) = true := by decide

/-- V-ORA-2 (R1007). -/
theorem test_ora_2 :
    stepsTo ({ placed 0x0200 [0x09, 0x00] [] with a := 0x00 })
      (fun s => { s with p := Flags.unpack 0x26, pc := 0x0202, cycles := 2 }) = true := by decide

/-- V-EOR-1 (R1008). -/
theorem test_eor_1 :
    stepsTo ({ placed 0x0200 [0x5D, 0xFE, 0x10] [(0x10FF, 0x0F)] with a := 0xFF, x := 0x01 })
      (fun s => { s with a := 0xF0, p := Flags.unpack 0xA4, pc := 0x0203, cycles := 4 }) = true := by decide

/-- V-EOR-2 (R1008). -/
theorem test_eor_2 :
    stepsTo ({ placed 0x0200 [0x49, 0x5A] [] with a := 0x5A })
      (fun s => { s with a := 0x00, p := Flags.unpack 0x26, pc := 0x0202, cycles := 2 }) = true := by decide

/-! ## Exceptions, interrupts, reset and drive modes. -/

/-- The IRQ/BRK vector at 0x8000 and the NMI vector at 0xA000. -/
def vectors : List (Word × Byte) := [(0xFFFE, 0x00), (0xFFFF, 0x80), (0xFFFA, 0x00), (0xFFFB, 0xA0)]

/-- V-ILL-1 (R1100, R1101). -/
theorem test_illegal_latches :
    stepsTo { placed 0x0200 [0x02] [] with a := 0x11 } (fun s => { s with fault := some (0x02, 0x0200) }) = true := by
  decide

/-- V-ILL-3 (R1101): the same fault again. -/
theorem test_illegal_again :
    step { placed 0x0200 [0x02] [] with fault := some (0x02, 0x0200) } = .fault (.illegalOpcode 0x02 0x0200) := rfl

/-- V-ILL-4 (R1101, R1200): reset clears the latch. -/
theorem test_illegal_reset :
    (let s := { placed 0x0200 [0x02] [(0xFFFC, 0x00), (0xFFFD, 0x02)] with a := 0x11, fault := some (0x02, 0x0200) }
     decide (s.toCpu.hostReset Bus.ram = { s.toCpu with a := 0, fault := none })) = true := by decide

/-- V-IRQ-1 (R1110): I masks the IRQ. -/
theorem test_irq_masked :
    stepsTo { placed 0x0200 [0xEA] vectors with irqLine := true } (fun s => { s with pc := 0x0201, cycles := 2 }) = true := by
  decide

/-- V-IRQ-2 (R1110, R1111). -/
theorem test_irq_taken :
    stepsTo { placed 0x0200 [0xEA] vectors with irqLine := true, p := Flags.unpack 0x21 }
      (fun s => { s with
        sp := 0xFA, p := Flags.unpack 0x25, pc := 0x8000, cycles := 7
        mem := poked s.mem [(0x01FD, 0x02), (0x01FC, 0x00), (0x01FB, 0x21)] }) = true := by decide

/-- V-NMI-1 (R1111): B is pushed as 0, and D is kept. -/
theorem test_nmi_taken :
    stepsTo { placed 0x0200 [0xEA] vectors with nmiPending := true, p := Flags.unpack 0x3C }
      (fun s => { s with
        sp := 0xFA, nmiPending := false, pc := 0xA000, cycles := 7
        mem := poked s.mem [(0x01FD, 0x02), (0x01FC, 0x00), (0x01FB, 0x2C)] }) = true := by decide

/-- V-NMI-2 (R1113): NMI before IRQ. -/
theorem test_nmi_before_irq :
    stepsTo { placed 0x0200 [0xEA] vectors with nmiPending := true, irqLine := true, p := Flags.unpack 0x20 }
      (fun s => { s with
        sp := 0xFA, nmiPending := false, p := Flags.unpack 0x24, pc := 0xA000, cycles := 7
        mem := poked s.mem [(0x01FD, 0x02), (0x01FC, 0x00), (0x01FB, 0x20)] }) = true := by decide

/-- V-NMI-3 (R1113): NMI before an invalid opcode. -/
theorem test_nmi_before_illegal :
    stepsTo { placed 0x0200 [0x02] vectors with nmiPending := true, p := Flags.unpack 0x20 }
      (fun s => { s with
        sp := 0xFA, nmiPending := false, p := Flags.unpack 0x24, pc := 0xA000, cycles := 7
        mem := poked s.mem [(0x01FD, 0x02), (0x01FC, 0x00), (0x01FB, 0x20)] }) = true := by decide

/-- V-NMI-4 (R1110): two calls before a step give one NMI. -/
theorem test_nmi_latch : (placed 0x0200 [] []).toCpu.signalNMI.signalNMI = (placed 0x0200 [] []).toCpu.signalNMI := rfl

/-- V-RST-1 (R1200). -/
theorem test_reset :
    (let s := { placed 0x1234 [] [(0xFFFC, 0x00), (0xFFFD, 0x06)] with
        a := 0x11, x := 0x22, y := 0x33, sp := 0x10, p := Flags.unpack 0xFF, cycles := 100, nmiPending := true
        irqLine := true, fault := some (0x02, 0x1234) }
     decide (s.toCpu.hostReset Bus.ram =
      { s.toCpu with
        a := 0, x := 0, y := 0, sp := 0xFD, p := Flags.unpack 0x24, pc := 0x0600, nmiPending := false
        fault := none })) = true := by decide

/-- V-RST-3 (R1201). -/
theorem test_create :
    (let m := poked [] [(0xFFFC, 0x00), (0xFFFD, 0x02)]
     decide (Cpu.create Bus.ram m = { State.reset.toCpu with pc := 0x0200, mem := m })) = true := by decide

/-- V-RUN-1 (R402): a budget of 0 makes no step. -/
theorem test_run_until_zero :
    runUntil Bus.ram 0 (placed 0x0200 [0xEA] []).toCpu = (⟨0, none⟩, (placed 0x0200 [0xEA] []).toCpu) := rfl

/-- The bounded form of V-RUN-3 (R402): a fault stops the call, and no cycles are counted for it. -/
theorem test_run_until_fault : (runUntil Bus.ram 5 (placed 0x0204 [0x02] []).toCpu).1 = ⟨0, some (0x02, 0x0204)⟩ := by
  decide

/-- The bounded form of V-RUN-4 (R403): the predicate is looked at before each step. -/
theorem test_run_stop :
    (runFor Bus.ram (fun c => c.pc == 0x0201) 5 (placed 0x0200 [0xEA, 0xEA] []).toCpu).1 = .stopped ∧
    (runFor Bus.ram (fun c => c.pc == 0x0201) 5 (placed 0x0200 [0xEA, 0xEA] []).toCpu).2.pc = 0x0201 := by decide

/-- The invariant can fail: a cell that holds the unlisted byte, and a latched fault whose opcode is valid. -/
theorem test_inv_refuses :
    State.inv { State.reset with mem := [(0x10, 0x00)] } = false ∧
    State.inv { State.reset with mem := [(0x11, 0x01), (0x10, 0x01)] } = false ∧
    State.inv { State.reset with mem := [(0x10000, 0x01)] } = false ∧
    State.inv { placed 0x0200 [0xEA] [] with fault := some (0xEA, 0x0200) } = false ∧
    State.inv { placed 0x0200 [0x02] [] with fault := some (0x02, 0x0200) } = true := by decide

/-- `withFetchWord` puts the word where the next step fetches it (log 6). -/
theorem test_withFetchWord :
    stepsTo (State.reset.withFetchWord 24 0x1234BD) (fun s => { s with pc := 3, cycles := 4, p := Flags.unpack 0x26 }) = true ∧
    stepsTo (State.reset.withFetchWord 8 0xEA) (fun s => { s with pc := 1, cycles := 2 }) = true := by decide

/-- The examples of R309, by the choice of form and the encoded offset of a branch. -/
theorem test_assembler_choices :
    preferZeroPage (.read .lda) (.absolute 0x0010) = .zeroPage 0x10 ∧
    preferZeroPage (.read .lda) (.absoluteY 0x0010) = .absoluteY 0x0010 ∧
    preferZeroPage .jmp (.absolute 0x0010) = .absolute 0x0010 ∧
    branchOffset 0x0208 0x0205 = some 0xFB ∧ branchOffset 0x0200 0x0281 = some 0x7F ∧
    branchOffset 0x0200 0x0282 = none ∧ branchOffset 0x0300 0x0282 = some 0x80 := by decide

/-- The examples of R309's table, and the target of a branch (log 10). -/
theorem test_assembler_text :
    asmText 0 (.ldaAbsX 0x4402) = "LDA $4402,X" ∧ asmText 0 (.ldaIndY 0x20) = "LDA ($20),Y" ∧
    asmText 0 (.ldaIndX 0x20) = "LDA ($20,X)" ∧ asmText 0 (.jmpInd 0x30FF) = "JMP ($30FF)" ∧
    asmText 0 (.ldaImm 0x84) = "LDA #$84" ∧ asmText 0 .aslAcc = "ASL A" ∧ asmText 0 .inx = "INX" ∧
    asmText 0x0208 (.bne 0xFB) = "BNE $0205" := by decide

/-! ## Witnesses: for each obligation with hypotheses, states and operands that meet them together. -/

/-- A state for witnesses: NOP at 0x0200, the registers all different. -/
def sample : State := { placed 0x0200 [0xEA] vectors with a := 0x81, x := 0x02, y := 0x03 }

theorem witness_OpcodeAloneFixesTheLength : (Instr.adcImm 1).row.opcode = (Instr.adcImm 2).row.opcode := rfl

theorem witness_DispatchTableHasOneRowPerInstruction :
    descr 0x00 = some ⟨.implied .brk, .implied, 7, false⟩ ∧ descr 0xFE = some ⟨.modify .inc, .absoluteX, 7, false⟩ ∧
    (Instr.ldaAbsX 0).row.pageCross = true := by decide

theorem witness_FormsOfInstructionsAreTheWellFormedOnes : Instr.aslAcc.form = Instr.aslAcc.form := rfl

/-- PC at an ordinary place, and at 0xFFFF, where the operand bytes wrap to 0x0000; interrupts absent, and masked. -/
theorem witness_StepRunsTheDecodedInstruction :
    (sample.fault = none ∧ sample.quiet ∧ decode sample.window = .instr .nop [0, 0]) ∧
    (let s := { placed 0xFFFF [0x4C, 0x34, 0x12] [] with irqLine := true }
     s.fault = none ∧ s.quiet ∧ decode s.window = .instr (.jmpAbs 0x1234) []) := by
  unfold State.quiet; decide

theorem witness_InvalidOpcodeLatchesTheFault :
    (let s := placed 0xFFFF [0xFF] []
     s.fault = none ∧ s.quiet ∧ decode s.window = .invalid 0xFF) ∧
    ({ placed 0x0200 [0x02] [] with fault := some (0x02, 0x0200) } : State).fault = some (0x02, 0x0200) := by
  unfold State.quiet; decide

/-- With I and the IRQ line as they may be, and SP at both ends of its page. -/
theorem witness_PendingNmiIsTaken :
    (let s := { sample with nmiPending := true, irqLine := true, sp := 0x00 }
     s.fault = none ∧ s.nmiPending = true) ∧
    (let s := { placed 0x0200 [0x02] vectors with nmiPending := true, sp := 0xFF }
     s.fault = none ∧ s.nmiPending = true) := by decide

theorem witness_UnmaskedIrqIsTaken :
    (let s := { sample with irqLine := true, sp := 0x01, p := Flags.unpack 0x00 }
     s.fault = none ∧ s.nmiPending = false ∧ s.irqLine = true ∧ s.p.i = false) := by decide

theorem witness_StepIsStepOfTheCoreOnRam :
    sample.fault = none ∧ ({ sample with fault := some (0x02, 0x0200) } : State).fault = some (0x02, 0x0200) := by
  decide

/-- An instruction, an interrupt entry and a latching step, each from a state with the invariant. -/
theorem witness_InvariantIsKeptByEveryStep :
    (sample.inv = true ∧ ∃ t, step sample = .next t) ∧
    (State.inv { sample with nmiPending := true } = true ∧ ∃ t, step { sample with nmiPending := true } = .next t) ∧
    ((placed 0x0200 [0x02] []).inv = true ∧ ∃ t, step (placed 0x0200 [0x02] []) = .next t) :=
  ⟨⟨by decide, _, rfl⟩, ⟨by decide, _, rfl⟩, by decide, _, rfl⟩

theorem witness_InvariantHoldsAtReset :
    Memory.wf [(0x0000, 0x01), (0xFFFF, 0xFF)] = true ∧ sample.inv = true ∧
    State.inv { placed 0x0200 [0x02] [] with fault := some (0x02, 0x0200) } = true := by decide

/-- Creation with an invalid opcode at the reset vector's address, and the latched state one step later. -/
theorem witness_ReachableStatesStopOnlyAtAnInvalidOpcode :
    (∃ s, Reachable s ∧ s.fault = none ∧ ∃ t, step s = .next t) ∧
    ∃ s, Reachable s ∧ step s = .fault (.illegalOpcode 0x02 0x0000) :=
  ⟨⟨⟨Cpu.create Bus.ram [(0, 2)]⟩, .create _ (by decide), rfl, _, rfl⟩,
    ⟨_, .step ⟨Cpu.create Bus.ram [(0, 2)]⟩ _ (.create _ (by decide)) rfl, rfl⟩⟩

/-- A step of 2 cycles, one of 7, and one that latches a fault. -/
theorem witness_StepChargesTwoToSevenCyclesOrLatches :
    (∃ t, step sample = .next t ∧ t.fault = none ∧ t.cycles = 2) ∧
    (∃ t, step (placed 0x0200 [0x00] []) = .next t ∧ t.fault = none ∧ t.cycles = 7) ∧
    ∃ t, step (placed 0x0200 [0x02] []) = .next t ∧ t.fault ≠ none ∧ t.cycles = 0 :=
  ⟨⟨_, rfl, rfl, rfl⟩, ⟨_, rfl, rfl, rfl⟩, ⟨_, rfl, by decide, rfl⟩⟩

theorem witness_NoRunObservesTheStoredBreakAndUnused :
    (∃ t, Host.Core.run Sys2Proof.core 1 (placed 0x0200 [0x08] []) = .next t) ∧
    ∃ r, Host.Core.run Sys2Proof.core 2 (placed 0x0200 [0x02] []) = .fault r := ⟨⟨_, rfl⟩, ⟨_, rfl⟩⟩

theorem witness_NoRunObservesTheCycleTotal :
    (∃ t, Host.Core.run Sys2Proof.core 1 (placed 0x0200 [0xEA] []) = .next t) ∧
    ∃ r, Host.Core.run Sys2Proof.core 2 (placed 0x0200 [0x02] []) = .fault r := ⟨⟨_, rfl⟩, ⟨_, rfl⟩⟩

theorem witness_DecimalFlagAltersNothingButPushes :
    (∃ t, exec .sed sample = .next t) ∧ (∃ t, exec .cld sample = .next t) ∧
    (∃ t, exec .plp sample = .next t) ∧ (∃ t, exec .rti sample = .next t) ∧
    (∃ t, exec .php sample = .next t) ∧ (∃ t, exec .brk sample = .next t) ∧
    (∃ t, step { sample with nmiPending := true } = .next t ∧ ¬ State.quiet { sample with nmiPending := true }) ∧
    (Instr.adcImm 0x99 ≠ .php ∧ Instr.adcImm 0x99 ≠ .brk ∧ ∃ t, exec (.adcImm 0x99) sample = .next t) ∧
    (∃ (run : State → Result) (t : State), run = exec .php ∧ (0xFD : Byte) = sample.sp ∧ run sample = .next t) :=
  ⟨exec_completes _ _, exec_completes _ _, exec_completes _ _, exec_completes _ _, exec_completes _ _,
    exec_completes _ _, ⟨_, rfl, by unfold State.quiet; decide⟩, ⟨by decide, by decide, exec_completes _ _⟩,
    exec .php, _, rfl, rfl, rfl⟩

/-- Each register changed: A by LDA and by ASL A, X by INX, Y by TAY, SP by PHA. -/
theorem witness_RegistersAreWrittenOnlyByTheirWriters :
    (∃ t, exec (.ldaImm 0x00) sample = .next t ∧ t.a ≠ sample.a) ∧
    (∃ t, exec .aslAcc sample = .next t ∧ t.a ≠ sample.a) ∧
    (∃ t, exec .inx sample = .next t ∧ t.x ≠ sample.x) ∧
    (∃ t, exec .tay sample = .next t ∧ t.y ≠ sample.y) ∧
    ∃ t, exec .pha sample = .next t ∧ t.sp ≠ sample.sp :=
  ⟨⟨_, rfl, by decide⟩, ⟨_, rfl, by decide⟩, ⟨_, rfl, by decide⟩, ⟨_, rfl, by decide⟩, ⟨_, rfl, by decide⟩⟩

/-- Each flag changed, by an instruction of its row. -/
theorem witness_FlagsAreWrittenOnlyByTheirWriters :
    (∃ t, exec .sec sample = .next t ∧ t.p.c ≠ sample.p.c) ∧
    (∃ t, exec (.ldaImm 0x00) sample = .next t ∧ t.p.z ≠ sample.p.z) ∧
    (∃ t, exec (.ldaImm 0x80) sample = .next t ∧ t.p.n ≠ sample.p.n) ∧
    (∃ t, exec .cli sample = .next t ∧ t.p.i ≠ sample.p.i) ∧
    (∃ t, exec .sed sample = .next t ∧ t.p.d ≠ sample.p.d) ∧
    (∃ t, exec .plp { sample with p := Flags.unpack 0x10 } = .next t ∧ t.p.b ≠ true) ∧
    (∃ t, exec .plp sample = .next t ∧ t.p.u ≠ sample.p.u) ∧
    ∃ t, exec (.adcImm 0x80) sample = .next t ∧ t.p.v ≠ sample.p.v :=
  ⟨⟨_, rfl, by decide⟩, ⟨_, rfl, by decide⟩, ⟨_, rfl, by decide⟩, ⟨_, rfl, by decide⟩, ⟨_, rfl, by decide⟩,
    ⟨_, rfl, by decide⟩, ⟨_, rfl, by decide⟩, ⟨_, rfl, by decide⟩⟩

/-- A form of each kind, and an address beside the bytes it stores. -/
theorem witness_MemoryChangesOnlyAtTheStoredBytes :
    ((∃ t, exec (.staAbsX 0xFFFE) sample = .next t) ∧ 0xFFFF ∉ [sample.ea (.absoluteX 0xFFFE)]) ∧
    ((∃ t, exec (.incZp 0xFF) sample = .next t) ∧ 0x0100 ∉ [sample.ea (.zeroPage 0xFF)]) ∧
    ((∃ t, exec .brk { sample with sp := 0x01 } = .next t) ∧
      (0x01FE : Word) ∉ [stackSlot 0x01, stackSlot (0x01 - 1), stackSlot (0x01 - 2)]) ∧
    (∃ t, exec (.jsr 0x4242) sample = .next t) ∧ (∃ t, exec .php sample = .next t) ∧
    ∃ t, exec (.cmpImm 0x01) sample = .next t :=
  ⟨⟨exec_completes _ _, by decide⟩, ⟨exec_completes _ _, by decide⟩, ⟨exec_completes _ _, by decide⟩,
    exec_completes _ _, exec_completes _ _, exec_completes _ _⟩

theorem witness_InstructionsLeaveTheControlStateAlone :
    (∃ t, exec .nop { sample with nmiPending := true, irqLine := true, fault := some (0x02, 0) } = .next t) ∧
    (∃ t, step { sample with nmiPending := true } = .next t) ∧
    ∃ t, step (placed 0x0200 [0x02] []) = .next t ∧ t.fault = some (0x02, 0x0200) :=
  ⟨⟨_, rfl⟩, ⟨_, rfl⟩, ⟨_, rfl, rfl⟩⟩

/-- At the top of memory, where PC wraps; a branch with the largest offset back, taken and not taken. -/
theorem witness_PcIsSequentialButForTransfers :
    ((∃ t, exec (.ldaImm 0) { sample with pc := 0xFFFF } = .next t) ∧
      (∀ o rel, (Instr.ldaImm 0).form ≠ .branch o rel) ∧
      (Instr.ldaImm 0).op ∉ [Op.jmp, .jsr, .implied .rts, .implied .brk, .implied .rti]) ∧
    (∃ t, exec (.bcc 0x80) sample = .next t ∧ t.pc = 0x0182) ∧
    (∃ t, exec (.bcs 0x80) sample = .next t ∧ t.pc = 0x0202) ∧ (Instr.bcc 0x80).form = .branch .bcc 0x80 :=
  ⟨⟨exec_completes _ _, fun _ _ h => Form.noConfusion h, by decide⟩, ⟨_, rfl, rfl⟩, ⟨_, rfl, rfl⟩, rfl⟩

theorem witness_AdcAndSbcUseTheSharedAdder :
    ((Instr.adcIndY 0xFF).form = .read .adc (.memory (.indirectIndexedY 0xFF)) ∧
      (0x00 : Byte) = sample.load (.memory (.indirectIndexedY 0xFF))) ∧
    ((Instr.sbcImm 0xFF).form = .read .sbc (.immediate 0xFF) ∧ (0x00 : Byte) = ~~~(sample.load (.immediate 0xFF))) :=
  ⟨⟨rfl, by decide⟩, rfl, by decide⟩

theorem witness_SbcBorrowsAndOverflowIsSigned :
    (Instr.sbcImm 0x00).form = .read .sbc (.immediate 0x00) ∧
    (Instr.adcAbsX 0xFFFF).form = .read .adc (.memory (.absoluteX 0xFFFF)) := ⟨rfl, rfl⟩

theorem witness_ComparesSetCarryZeroNegative :
    ((Instr.cmpIndX 0xFF).form = .read .cmp (.memory (.indexedIndirectX 0xFF)) ∧ (0x81 : Byte) = sample.a) ∧
    ((Instr.cpxImm 0xFF).form = .read .cpx (.immediate 0xFF) ∧ (0x02 : Byte) = sample.x) ∧
    ((Instr.cpyAbs 0xFFFF).form = .read .cpy (.memory (.absolute 0xFFFF)) ∧ (0x03 : Byte) = sample.y) :=
  ⟨⟨rfl, rfl⟩, ⟨rfl, rfl⟩, rfl, rfl⟩

theorem witness_LogicCombinesIntoA :
    ((Instr.andImm 0xFF).form = .read .and (.immediate 0xFF) ∧ 0x81 = sample.a &&& sample.load (.immediate 0xFF)) ∧
    ((Instr.oraImm 0x00).form = .read .ora (.immediate 0x00) ∧ 0x81 = sample.a ||| sample.load (.immediate 0x00)) ∧
    ((Instr.eorImm 0x81).form = .read .eor (.immediate 0x81) ∧
      0x00 = sample.a ^^^ sample.load (.immediate 0x81)) :=
  ⟨⟨rfl, by decide⟩, ⟨rfl, by decide⟩, rfl, by decide⟩

theorem witness_LoadsWriteTheRegister :
    (Instr.ldaAbsX 0xFFFF).form = .read .lda (.memory (.absoluteX 0xFFFF)) ∧
    (Instr.ldxZpY 0xFF).form = .read .ldx (.memory (.zeroPageY 0xFF)) ∧
    (Instr.ldyImm 0x00).form = .read .ldy (.immediate 0x00) := ⟨rfl, rfl, rfl⟩

theorem witness_BitTestsAgainstA :
    (Instr.bitZp 0xFF).form = .read .bit (.memory (.zeroPage 0xFF)) ∧
    (Instr.bitAbs 0xFFFF).form = .read .bit (.memory (.absolute 0xFFFF)) := ⟨rfl, rfl⟩

theorem witness_StoresWriteTheRegisterAtTheAddress :
    ((Instr.staAbsY 0xFFFF).form = .store .sta (.absoluteY 0xFFFF) ∧ (0x81 : Byte) = sample.a) ∧
    ((Instr.stxZpY 0xFF).form = .store .stx (.zeroPageY 0xFF) ∧ (0x02 : Byte) = sample.x) ∧
    ((Instr.styZpX 0xFF).form = .store .sty (.zeroPageX 0xFF) ∧ (0x03 : Byte) = sample.y) :=
  ⟨⟨rfl, rfl⟩, ⟨rfl, rfl⟩, rfl, rfl⟩

theorem witness_ShiftsAndRotatesThroughCarry :
    Instr.aslAcc.form = .modify .asl .accumulator ∧ Instr.lsrAcc.form = .modify .lsr .accumulator ∧
    Instr.rolAcc.form = .modify .rol .accumulator ∧ Instr.rorAcc.form = .modify .ror .accumulator ∧
    (Instr.aslZp 0xFF).form = .modify .asl (.memory (.zeroPage 0xFF)) ∧
    (Instr.lsrAbs 0xFFFF).form = .modify .lsr (.memory (.absolute 0xFFFF)) ∧
    (Instr.rolZpX 0xFF).form = .modify .rol (.memory (.zeroPageX 0xFF)) ∧
    (Instr.rorAbsX 0xFFFF).form = .modify .ror (.memory (.absoluteX 0xFFFF)) := by decide

theorem witness_IncAndDecStepMemory :
    (Instr.incZp 0x00).form = .modify .inc (.memory (.zeroPage 0x00)) ∧
    (Instr.decAbsX 0xFFFF).form = .modify .dec (.memory (.absoluteX 0xFFFF)) := ⟨rfl, rfl⟩

theorem witness_NineRotationsRestoreAccumulatorAndCarry :
    (∃ i : Instr, i = .rolAcc ∨ i = .rorAcc) ∧ Instr.rorAcc = .rorAcc := ⟨⟨.rolAcc, .inl rfl⟩, rfl⟩

/-- A branch of each flag value, and the two extreme offsets. -/
theorem witness_BranchesTestOneFlag :
    (Instr.bcc 0x7F).form = .branch .bcc 0x7F ∧ (Instr.bcs 0x80).form = .branch .bcs 0x80 ∧
    (Instr.beq 0x00).form = .branch .beq 0x00 ∧ (Instr.bne 0xFF).form = .branch .bne 0xFF ∧
    (Instr.bmi 0x01).form = .branch .bmi 0x01 ∧ (Instr.bpl 0x80).form = .branch .bpl 0x80 ∧
    (Instr.bvc 0x7F).form = .branch .bvc 0x7F ∧ (Instr.bvs 0xFE).form = .branch .bvs 0xFE := by decide

theorem witness_InterruptMaskActsFromTheNextStep :
    sample.nmiPending = false ∧
    (({ sample with irqLine := true } : State).nmiPending = false ∧
      ({ sample with irqLine := true } : State).irqLine = true) ∧
    ({ sample with nmiPending := true } : State).nmiPending = true := by decide

theorem witness_TransfersCopyTheSource : (placed 0x0200 [0x9A] []).x = 0 := rfl

theorem witness_JumpsGoToTheResolvedAddress : (Instr.jmpInd 0x30FF).mode = .indirect := rfl

/-- JSR from 0xFFFF with SP = 0: the pushed word and the pushes wrap. -/
theorem witness_RtsReturnsPastThePulledWord :
    ∃ t, exec (.jsr 0x4242) { sample with pc := 0xFFFF, sp := 0x00 } = .next t := exec_completes _ _

theorem witness_RtiReturnsFromTheHandler :
    (∃ t, exec .brk { sample with sp := 0x01 } = .next t) ∧
    ∃ t, step { sample with irqLine := true, p := Flags.unpack 0x10 } = .next t ∧
      ¬ State.quiet { sample with irqLine := true, p := Flags.unpack 0x10 } :=
  ⟨exec_completes _ _, _, rfl, by unfold State.quiet; decide⟩

theorem witness_NopOnlyAdvances :
    ∀ s : State, exec .nop s = .next { s with pc := s.pc + 1, cycles := s.cycles + 2 } := fun _ => rfl

theorem witness_StatusPushThenPullForcesBreakUnused :
    ∃ t, exec .php { sample with sp := 0x00, p := Flags.unpack 0x00 } = .next t := exec_completes _ _

theorem witness_DirectAndIndexedModesResolve :
    (MemOperand.absoluteX 0xFFFF).mode ∈ [Mode.zeroPage, .zeroPageX, .zeroPageY, .absolute, .absoluteX, .absoluteY] ∧
    (Instr.ldxZpY 0xFF).mode = .zeroPageY ∧ (Instr.stxZpY 0x00).mode = .zeroPageY := by decide

theorem witness_RamReadsTheLatestWrite :
    Memory.wf [] = true ∧ Memory.wf [(0x0000, 0x01), (0xFFFF, 0xFF)] = true ∧
    ∀ addr : Word, Memory.read [(0x0000, 0x01), (0xFFFF, 0xFF)] addr = Memory.read [(0x0000, 0x01), (0xFFFF, 0xFF)] addr :=
  ⟨by decide, by decide, fun _ => rfl⟩

/-- An instance on a recording BUS with an empty record. -/
def recorder (s : State) : Cpu (Memory × List Access) := { s.toCpu with mem := (s.mem, []) }

theorem witness_InstructionsMakeExactlyTheirAccesses : (recorder sample).mem.2 = [] := rfl

/-- A fetch that finds an instruction, and one that finds an invalid opcode. -/
theorem witness_FetchReadsTheInstructionBytesOnce :
    ((recorder sample).mem.2 = [] ∧ ∃ c, (recorder sample).fetch Bus.ram.recording = .instr .nop c) ∧
    ((recorder (placed 0xFFFF [0x02] [])).mem.2 = [] ∧
      ∃ c, (recorder (placed 0xFFFF [0x02] [])).fetch Bus.ram.recording = .invalid 0x02 c) :=
  ⟨⟨rfl, _, rfl⟩, rfl, _, rfl⟩

theorem witness_HostResetWritesConstantsAndTheVector : (recorder sample).mem.2 = [] := rfl

/-- No fault with the budget overshot (3 cycles of 2-cycle steps: two steps, 4 used); a fault at the first step, and at the
second; no step. -/
theorem witness_RunUntilMeetsItsBudget :
    (runUntil Bus.ram 3 (placed 0x0200 [0xEA, 0xEA] []).toCpu).1 = ⟨4, none⟩ ∧
    (runUntil Bus.ram 2 (placed 0x0200 [0x02] []).toCpu).1 = ⟨0, some (0x02, 0x0200)⟩ ∧
    (runUntil Bus.ram 9 (placed 0x0200 [0xEA, 0x02] []).toCpu).1 = ⟨2, some (0x02, 0x0201)⟩ ∧
    (runUntil Bus.ram 0 sample.toCpu).1 = ⟨0, none⟩ := by decide

/-- Each of the three ends, before any step and after one. -/
theorem witness_RunForEndsAsItSays :
    (runFor Bus.ram (fun _ => true) 0 sample.toCpu).1 = .stopped ∧
    (runFor Bus.ram (fun c => c.pc == 0x0201) 1 (placed 0x0200 [0xEA] []).toCpu).1 = .stopped ∧
    (runFor Bus.ram (fun _ => false) 1 (placed 0x0200 [0x02] []).toCpu).1 = .fault 0x02 0x0200 ∧
    (runFor Bus.ram (fun _ => false) 2 (placed 0x0200 [0xEA, 0x02] []).toCpu).1 = .fault 0x02 0x0201 ∧
    (runFor Bus.ram (fun _ => false) 0 sample.toCpu).1 = .running ∧
    (runFor Bus.ram (fun _ => false) 1 (placed 0x0200 [0xEA] []).toCpu).1 = .running := by decide

/-- An offset at each end of its range; each branch with its condition true, on a set flag and on a clear one. -/
theorem witness_BranchOffsetsAreTargetMinusNext :
    branchOffset 0x0200 0x0182 = some 0x80 ∧ branchOffset 0x0200 0x0281 = some 0x7F ∧
    ([Instr.bcs 0x80, .beq 0x80, .bmi 0x80, .bvs 0x80].all fun i =>
      match i.form with
      | .branch o _ => branchCondition o (Flags.unpack 0xFF)
      | _ => false) = true ∧
    ([Instr.bcc 0x7F, .bne 0x7F, .bpl 0x7F, .bvc 0x7F].all fun i =>
      match i.form with
      | .branch o _ => branchCondition o (Flags.unpack 0x20)
      | _ => false) = true := by decide

end Sys2Proof.Tests
end

section
/-! # Proofs: runs and their first steps -/

namespace Sys2Proof.Machine

/-! ## What a step does in each of its cases -/

/-- Fetching from RAM looks at PC and memory only. -/
theorem Cpu.fetch_ram_congr {c d : Cpu Memory} (hpc : d.pc = c.pc) (hmem : d.mem = c.mem) :
    (∀ i, c.fetch Bus.ram = .instr i c → d.fetch Bus.ram = .instr i d) ∧
      ∀ opcode, c.fetch Bus.ram = .invalid opcode c → d.fetch Bus.ram = .invalid opcode d := by
  simp only [Cpu.fetch_ram, hpc, hmem]
  cases decode [Memory.read c.mem c.pc, Memory.read c.mem (c.pc + 1), Memory.read c.mem (c.pc + 2)] <;> simp

theorem step_of_fault {s : State} {opcode : Byte} {pc : Word} (h : s.fault = some (opcode, pc)) :
    step s = .fault (.illegalOpcode opcode pc) := by
  simp only [step, h]

theorem step_of_interrupt {s : State} {src : Interrupt} (hf : s.fault = none)
    (hp : s.toCpu.interruptPending = some src) : step s = .next ⟨s.toCpu.takeInterrupt Bus.ram src⟩ := by
  simp only [step, hf, hp]

theorem step_of_invalid {s : State} {opcode : Byte} (hf : s.fault = none) (hp : s.toCpu.interruptPending = none)
    (ho : s.toCpu.fetch Bus.ram = .invalid opcode s.toCpu) : step s = .next ⟨s.toCpu.raiseIllegalOpcode opcode⟩ := by
  simp only [step, hf, hp, ho]

theorem step_of_instr {s : State} {i : Instr} (hf : s.fault = none) (hp : s.toCpu.interruptPending = none)
    (hi : s.toCpu.fetch Bus.ram = .instr i s.toCpu) : step s = exec i s := by
  simp only [step, hf, hp, hi]

/-- With no fault latched there is a next state (R1102). -/
theorem step_completes {s : State} (hf : s.fault = none) : ∃ t, step s = .next t := by
  cases hp : s.toCpu.interruptPending with
  | some src => exact ⟨_, step_of_interrupt hf hp⟩
  | none =>
    simp only [step, hf, hp]
    cases s.toCpu.fetch Bus.ram with
    | instr i c => exact exec_completes i ⟨c⟩
    | invalid opcode c => exact ⟨_, rfl⟩

/-- The only fault a step reports is the latched one (R1101). -/
theorem step_eq_fault_iff {s : State} {r : Fault} :
    step s = .fault r ↔ ∃ opcode pc, s.fault = some (opcode, pc) ∧ r = .illegalOpcode opcode pc := by
  cases hf : s.fault with
  | none =>
    obtain ⟨t, ht⟩ := step_completes hf
    simp [ht]
  | some latch =>
    obtain ⟨opcode, pc⟩ := latch
    simp [step_of_fault hf, eq_comm]

theorem step_ne_refused (s : State) (r : Refusal) : step s ≠ .refused r := by
  cases hf : s.fault with
  | none =>
    obtain ⟨t, ht⟩ := step_completes hf
    simp [ht]
  | some latch => simp [step_of_fault hf]

/-! ## A relation that every step keeps is kept by every run -/

theorem run_succ_of_next {s t : State} (h : step s = .next t) (k : Nat) :
    Host.Core.run core (k + 1) s = Host.Core.run core k t := by
  have hcore : core.step s = .next t := h
  simp only [Host.Core.run, hcore]

theorem run_succ_of_fault {s : State} {r : Fault} (h : step s = .fault r) (k : Nat) :
    Host.Core.run core (k + 1) s = .fault r := by
  have hcore : core.step s = .fault r := h
  simp only [Host.Core.run, hcore]

/-- The second outcome follows the first: a next state by a related one, a fault by the same fault. -/
def Follows (R : State → State → Prop) (o o' : Result) : Prop :=
  (∀ t, o = .next t → ∃ t', o' = .next t' ∧ R t t') ∧ ∀ r, o = .fault r → o' = .fault r

theorem Follows.next {R : State → State → Prop} {t t' : State} (h : R t t') : Follows R (.next t) (.next t') :=
  ⟨fun _ ht => ⟨t', rfl, by cases ht; exact h⟩, nofun⟩

theorem Follows.fault (R : State → State → Prop) (r : Fault) : Follows R (.fault r) (.fault r) :=
  ⟨nofun, fun _ h => h⟩

/-- The induction over the number of steps, once for every relation. -/
theorem run_follows {R : State → State → Prop} (hstep : ∀ s s', R s s' → Follows R (step s) (step s')) (k : Nat)
    {s s' : State} (h : R s s') : Follows R (Host.Core.run core k s) (Host.Core.run core k s') := by
  induction k generalizing s s' with
  | zero => exact .next h
  | succ k ih =>
    obtain ⟨hnext, hfault⟩ := hstep s s' h
    cases hs : step s with
    | next t =>
      obtain ⟨t', ht', hR⟩ := hnext t hs
      rw [run_succ_of_next hs, run_succ_of_next ht']
      exact ih hR
    | fault r =>
      rw [run_succ_of_fault hs, run_succ_of_fault (hfault r hs)]
      exact .fault R r
    | refused r => exact absurd hs (step_ne_refused s r)

end Sys2Proof.Machine
end

section
/-! # Proofs: the status byte, bit by bit -/

namespace Sys2Proof.Machine

/-- The flag that stands at a bit of P (R110). -/
def Flags.bitAt (p : Flags) : Nat → Bool
  | 0 => p.c
  | 1 => p.z
  | 2 => p.i
  | 3 => p.d
  | 4 => p.b
  | 5 => p.u
  | 6 => p.v
  | 7 => p.n
  | _ => false

theorem getElem_flagByte (f : Bool) {k : Nat} (hk : k < 8) : (flagByte f)[k] = (f && decide (k = 0)) := by
  cases f <;> simp [flagByte, BitVec.getElem_one]

/-- Each bit of the packed byte is its flag (R110). -/
theorem Flags.getLsbD_pack (p : Flags) (k : Nat) : p.pack.getLsbD k = p.bitAt k := by
  obtain hk | hk := Nat.lt_or_ge k 8
  · interval_cases k <;> simp [Flags.pack, Flags.bitAt, getElem_flagByte]
  · rw [BitVec.getLsbD_of_ge _ _ hk]
    match k, hk with
    | k + 8, _ => rfl

theorem Flags.getLsbD_pushedByInstruction (p : Flags) (k : Nat) :
    p.pushedByInstruction.getLsbD k = (p.bitAt k || (0x30 : Byte).getLsbD k) := by
  rw [Flags.pushedByInstruction, BitVec.getLsbD_or, Flags.getLsbD_pack]

theorem Flags.getLsbD_pushedByInterrupt (p : Flags) (k : Nat) :
    p.pushedByInterrupt.getLsbD k = ((p.bitAt k && (0xEF : Byte).getLsbD k) || (0x20 : Byte).getLsbD k) := by
  rw [Flags.pushedByInterrupt, BitVec.getLsbD_or, BitVec.getLsbD_and, Flags.getLsbD_pack]

/-! ## Rewriting the flags that no instruction reads -/

/-- The flags with D, B and U rewritten: only a push of P reads them (R113, R115). -/
def Flags.mapUnread (fd fb fu : Bool → Bool) (p : Flags) : Flags := { p with d := fd p.d, b := fb p.b, u := fu p.u }

/-- A core with D, B and U rewritten. -/
def Cpu.mapUnread {σ : Type} (fd fb fu : Bool → Bool) (c : Cpu σ) : Cpu σ := { c with p := c.p.mapUnread fd fb fu }

/-- A state with D, B and U rewritten. -/
def State.mapUnread (fd fb fu : Bool → Bool) (s : State) : State := ⟨s.toCpu.mapUnread fd fb fu⟩

section
variable {σ : Type} (fd fb fu : Bool → Bool)

theorem State.advance_mapUnread (s : State) (n : Nat) :
    (s.mapUnread fd fb fu).toCpu.advance n = (s.toCpu.advance n).mapUnread fd fb fu := rfl

/-- Both pushes of P by an instruction force B and U (R112). -/
theorem Flags.pushedByInstruction_mapUnread (p : Flags) :
    (p.mapUnread id fb fu).pushedByInstruction = p.pushedByInstruction := by
  apply BitVec.eq_of_getLsbD_eq
  intro k hk
  simp only [Flags.getLsbD_pushedByInstruction]
  interval_cases k <;> simp [Flags.bitAt, Flags.mapUnread]

/-- So does the push by an interrupt entry (R112). -/
theorem Flags.pushedByInterrupt_mapUnread (p : Flags) :
    (p.mapUnread id fb fu).pushedByInterrupt = p.pushedByInterrupt := by
  apply BitVec.eq_of_getLsbD_eq
  intro k hk
  simp only [Flags.getLsbD_pushedByInterrupt]
  interval_cases k <;> simp [Flags.bitAt, Flags.mapUnread]

theorem readExecutor_mapUnread (o : ReadOp) (m : Byte) (c : Cpu σ) :
    readExecutor o m (c.mapUnread fd fb fu) = (readExecutor o m c).mapUnread fd fb fu := by cases o <;> rfl

theorem storedRegister_mapUnread (o : StoreOp) (c : Cpu σ) :
    storedRegister o (c.mapUnread fd fb fu) = storedRegister o c := by cases o <;> rfl

theorem byteFunction_mapUnread (o : ModifyOp) (v : Byte) (p : Flags) :
    byteFunction o v (p.mapUnread fd fb fu) =
      ((byteFunction o v p).1, (byteFunction o v p).2.mapUnread fd fb fu) := by cases o <;> rfl

theorem branchCondition_mapUnread (o : BranchOp) (p : Flags) :
    branchCondition o (p.mapUnread fd fb fu) = branchCondition o p := by cases o <;> rfl

/-- The operations of mode Implied that neither write D, B or U nor push P. -/
theorem impliedExecutor_mapUnread {o : ImpliedOp} (ho : o ∉ [ImpliedOp.sed, .cld, .php, .brk, .plp, .rti]) (B : Bus σ)
    (c : Cpu σ) : impliedExecutor B o (c.mapUnread fd fb fu) = (impliedExecutor B o c).mapUnread fd fb fu := by
  cases o with
  | sed | cld | php | brk | plp | rti => simp at ho
  | _ => rfl

theorem State.load_mapUnread (s : State) (src : ReadOperand) : (s.mapUnread fd fb fu).load src = s.load src := by
  cases src with
  | immediate b => rfl
  | memory m => cases m <;> rfl

theorem State.ea_mapUnread (s : State) (m : MemOperand) : (s.mapUnread fd fb fu).ea m = s.ea m := by cases m <;> rfl

theorem State.crosses_mapUnread (s : State) (m : MemOperand) : (s.mapUnread fd fb fu).crosses m = s.crosses m := by
  cases m <;> rfl

theorem State.loadCrosses_mapUnread (s : State) (src : ReadOperand) :
    (s.mapUnread fd fb fu).loadCrosses src = s.loadCrosses src := by
  cases src with
  | immediate b => rfl
  | memory m => exact s.crosses_mapUnread fd fb fu m

theorem runBranch_taken {i : Instr} {cond : Flags → Bool} {rel : Byte} {c : Cpu σ} (h : cond c.p = true) :
    runBranch i cond rel c =
      ⟨{ c with pc := c.pc + BitVec.ofNat 16 i.length + sext16 rel },
        cost i false (1 + if pagesDiffer (c.pc + BitVec.ofNat 16 i.length + sext16 rel)
          (c.pc + BitVec.ofNat 16 i.length) then 1 else 0)⟩ := by
  simp only [runBranch, Cpu.advance_p, h, if_true]
  rfl

theorem runBranch_untaken {i : Instr} {cond : Flags → Bool} {rel : Byte} {c : Cpu σ} (h : cond c.p = false) :
    runBranch i cond rel c = ⟨c.advance i.length, cost i false 0⟩ := by
  simp [runBranch, h]

/-- An instruction of mode Implied does to a rewritten state what its executor does to it. -/
theorem exec_implied_mapUnread {i : Instr} {o : ImpliedOp} (hi : i.form = .implied o) {gd gb gu : Bool → Bool}
    {s t : State} (h : exec i s = .next t)
    (ho : ∀ c : Cpu Memory, c = s.toCpu.advance i.length →
      impliedExecutor Bus.ram o (c.mapUnread fd fb fu) = (impliedExecutor Bus.ram o c).mapUnread gd gb gu) :
    exec i (s.mapUnread fd fb fu) = .next (t.mapUnread gd gb gu) := by
  rw [exec_implied s hi] at h
  cases h
  rw [exec_implied _ hi, State.advance_mapUnread, ho _ rfl]
  rfl

/-- Every other form carries the rewriting along. -/
theorem exec_mapUnread_of_not_implied {i : Instr} (hi : ∀ o, i.form ≠ .implied o) {s t : State}
    (h : exec i s = .next t) : exec i (s.mapUnread fd fb fu) = .next (t.mapUnread fd fb fu) := by
  cases hf : i.form with
  | read o src =>
    rw [exec_read s hf] at h
    cases h
    rw [exec_read _ hf, State.load_mapUnread, State.loadCrosses_mapUnread, State.advance_mapUnread,
      readExecutor_mapUnread]
    rfl
  | store o dst =>
    rw [exec_store s hf] at h
    cases h
    rw [exec_store _ hf, State.ea_mapUnread, State.crosses_mapUnread, State.advance_mapUnread,
      storedRegister_mapUnread]
    rfl
  | modify o target =>
    cases target with
    | accumulator =>
      rw [exec_modify_accumulator s hf] at h
      cases h
      rw [exec_modify_accumulator _ hf]
      simp only [State.mapUnread, Cpu.mapUnread, byteFunction_mapUnread]
      rfl
    | memory m =>
      rw [exec_modify_memory s hf] at h
      cases h
      rw [exec_modify_memory _ hf, State.ea_mapUnread, State.crosses_mapUnread]
      simp only [State.mapUnread, Cpu.mapUnread, byteFunction_mapUnread]
      rfl
  | branch o rel =>
    rw [exec_branch s hf] at h
    cases h
    cases hc : branchCondition o s.p with
    | true =>
      rw [exec_branch _ hf, runBranch_taken hc, runBranch_taken ((branchCondition_mapUnread fd fb fu o s.p).trans hc)]
      rfl
    | false =>
      rw [exec_branch _ hf, runBranch_untaken hc,
        runBranch_untaken ((branchCondition_mapUnread fd fb fu o s.p).trans hc)]
      rfl
  | jump m =>
    rw [exec_jump s hf] at h
    cases h
    rw [exec_jump _ hf, State.ea_mapUnread, State.crosses_mapUnread]
    rfl
  | call target =>
    rw [exec_call s hf] at h
    cases h
    rw [exec_call _ hf]
    rfl
  | implied o => exact absurd hf (hi o)

end

end Sys2Proof.Machine
end

section
/-! # Proofs: no run observes the stored B and U -/

namespace Sys2Proof.Machine

/-- The states differ in nothing but the stored B and U. -/
def SameButBreakUnused (s t : State) : Prop := ∃ fb fu : Bool → Bool, t = s.mapUnread id fb fu

/-- The operations of mode Implied: only PLP and RTI write B and U, and those come from memory. -/
theorem impliedExecutor_sameButBreakUnused (o : ImpliedOp) (fb fu : Bool → Bool) (c : Cpu Memory) :
    ∃ gb gu, impliedExecutor Bus.ram o (c.mapUnread id fb fu) = (impliedExecutor Bus.ram o c).mapUnread id gb gu := by
  by_cases ho : o ∈ [ImpliedOp.sed, .cld, .php, .brk, .plp, .rti]
  · simp only [List.mem_cons, List.not_mem_nil, or_false] at ho
    obtain rfl | rfl | rfl | rfl | rfl | rfl := ho
    · exact ⟨fb, fu, rfl⟩
    · exact ⟨fb, fu, rfl⟩
    · refine ⟨fb, fu, ?_⟩
      simp only [impliedExecutor, phpOp_ram, Cpu.mapUnread, Flags.pushedByInstruction_mapUnread]
    · refine ⟨fb, fu, ?_⟩
      simp only [impliedExecutor, brkOp_ram, Cpu.mapUnread, Flags.pushedByInstruction_mapUnread]
      rfl
    · exact ⟨id, id, rfl⟩
    · exact ⟨id, id, rfl⟩
  · exact ⟨fb, fu, impliedExecutor_mapUnread id fb fu ho Bus.ram c⟩

theorem exec_sameButBreakUnused (i : Instr) {s s' t : State} (hs : SameButBreakUnused s s')
    (h : exec i s = .next t) : ∃ t', exec i s' = .next t' ∧ SameButBreakUnused t t' := by
  obtain ⟨fb, fu, rfl⟩ := hs
  by_cases hi : ∃ o, i.form = .implied o
  · obtain ⟨o, hi⟩ := hi
    obtain ⟨gb, gu, ho⟩ := impliedExecutor_sameButBreakUnused o fb fu (s.toCpu.advance i.length)
    exact ⟨_, exec_implied_mapUnread id fb fu hi h (by rintro _ rfl; exact ho), gb, gu, rfl⟩
  · exact ⟨_, exec_mapUnread_of_not_implied id fb fu (not_exists.mp hi) h, fb, fu, rfl⟩

/-- An interrupt entry pushes the same byte whatever the stored B and U are (R112). -/
theorem takeInterrupt_mapUnread (fb fu : Bool → Bool) (c : Cpu Memory) (src : Interrupt) :
    (c.mapUnread id fb fu).takeInterrupt Bus.ram src = (c.takeInterrupt Bus.ram src).mapUnread id fb fu := by
  simp only [Cpu.takeInterrupt_ram, Cpu.mapUnread, Flags.pushedByInterrupt_mapUnread]
  cases src <;> rfl

/-- The step lemma of the pair. -/
theorem step_sameButBreakUnused (s s' : State) (hs : SameButBreakUnused s s') :
    Follows SameButBreakUnused (step s) (step s') := by
  obtain ⟨fb, fu, rfl⟩ := hs
  refine ⟨fun t h => ?_, fun r h => ?_⟩
  · have hfetch := Cpu.fetch_ram_congr (c := s.toCpu) (d := (s.mapUnread id fb fu).toCpu) rfl rfl
    obtain ⟨hf, ⟨src, hp, rfl⟩ | ⟨hp, opcode, ho, rfl⟩ | ⟨hp, i, hi, hexec⟩⟩ := step_cases h
    · refine ⟨_, step_of_interrupt (src := src) hf hp, fb, fu, ?_⟩
      exact congrArg State.mk (takeInterrupt_mapUnread fb fu s.toCpu src)
    · exact ⟨_, step_of_invalid hf hp (hfetch.2 opcode ho), fb, fu, rfl⟩
    · rw [step_of_instr (s := s.mapUnread id fb fu) hf hp (hfetch.1 i hi)]
      exact exec_sameButBreakUnused i ⟨fb, fu, rfl⟩ hexec
  · exact step_eq_fault_iff.mpr (step_eq_fault_iff (s := s).mp h)

/-- Settles O17: the step lemma of the pair, carried over the run. -/
theorem noRunObservesTheStoredBreakAndUnused : Obligations.NoRunObservesTheStoredBreakAndUnused := by
  intro k s b u
  obtain ⟨hnext, hfault⟩ := run_follows step_sameButBreakUnused k
    (s := s) (s' := { s with p := { s.p with b := b, u := u } }) ⟨fun _ => b, fun _ => u, rfl⟩
  refine ⟨fun t h => ?_, hfault⟩
  obtain ⟨_, ht, fb, fu, rfl⟩ := hnext t h
  exact ⟨fb (t : State).p.b, fu (t : State).p.u, ht⟩

end Sys2Proof.Machine
end

section
/-! # Proofs: the effect of an instruction, by its form -/

namespace Sys2Proof.Machine

/-- What an instruction leaves in a state, by its form, with the cycles it charges. -/
inductive Effect (i : Instr) (s : State) : State → Prop where
  | read (o : ReadOp) (src : ReadOperand) (hf : i.form = .read o src) :
    Effect i s ⟨(readExecutor o (s.load src) (s.toCpu.advance i.length)).charge (cost i (s.loadCrosses src) 0)⟩
  | store (o : StoreOp) (dst : MemOperand) (hf : i.form = .store o dst) (mem : Memory) :
    Effect i s ⟨Cpu.charge { s.toCpu.advance i.length with mem := mem } (cost i (s.crosses dst) 0)⟩
  | modifyAccumulator (o : ModifyOp) (hf : i.form = .modify o .accumulator) :
    Effect i s ⟨Cpu.charge
      { s.toCpu.advance i.length with a := (byteFunction o s.a s.p).1, p := (byteFunction o s.a s.p).2 }
      (cost i false 0)⟩
  | modifyMemory (o : ModifyOp) (m : MemOperand) (hf : i.form = .modify o (.memory m)) (v : Byte) (mem : Memory) :
    Effect i s ⟨Cpu.charge { s.toCpu.advance i.length with mem := mem, p := (byteFunction o v s.p).2 }
      (cost i (s.crosses m) 0)⟩
  | branchTaken (o : BranchOp) (rel : Byte) (hf : i.form = .branch o rel) (extra : Nat) (hextra : extra ≤ 2) :
    Effect i s ⟨Cpu.charge { s.toCpu with pc := s.pc + BitVec.ofNat 16 i.length + sext16 rel } (cost i false extra)⟩
  | branchUntaken (o : BranchOp) (rel : Byte) (hf : i.form = .branch o rel) :
    Effect i s ⟨(s.toCpu.advance i.length).charge (cost i false 0)⟩
  | jump (m : MemOperand) (hf : i.form = .jump m) :
    Effect i s ⟨Cpu.charge { s.toCpu with pc := s.ea m } (cost i (s.crosses m) 0)⟩
  | call (target : Word) (hf : i.form = .call target) (mem : Memory) :
    Effect i s ⟨Cpu.charge { s.toCpu with mem := mem, sp := s.sp - 2, pc := target } (cost i false 0)⟩
  | implied (o : ImpliedOp) (hf : i.form = .implied o) :
    Effect i s ⟨(impliedExecutor Bus.ram o (s.toCpu.advance i.length)).charge (cost i false 0)⟩

/-- The effect of an instruction that is run. -/
theorem effect_of_exec {i : Instr} {s t : State} (h : exec i s = .next t) : Effect i s t := by
  cases hf : i.form with
  | read o src =>
    rw [exec_read s hf] at h
    cases h
    exact .read o src hf
  | store o dst =>
    rw [exec_store s hf] at h
    cases h
    exact .store o dst hf _
  | modify o target =>
    cases target with
    | accumulator =>
      rw [exec_modify_accumulator s hf] at h
      cases h
      exact .modifyAccumulator o hf
    | memory m =>
      rw [exec_modify_memory s hf] at h
      cases h
      exact .modifyMemory o m hf _ _
  | branch o rel =>
    cases hc : branchCondition o s.p with
    | true =>
      rw [exec_branch s hf, runBranch_taken hc] at h
      cases h
      exact .branchTaken o rel hf _ (by split <;> omega)
    | false =>
      rw [exec_branch s hf, runBranch_untaken hc] at h
      cases h
      exact .branchUntaken o rel hf
  | jump m =>
    rw [exec_jump s hf] at h
    cases h
    exact .jump m hf
  | call target =>
    rw [exec_call s hf, Cpu.pushWord_ram_slots] at h
    cases h
    exact .call target hf _
  | implied o =>
    rw [exec_implied s hf] at h
    cases h
    exact .implied o hf

/-! ## Cycles -/

theorem row_base_bounds (i : Instr) : 2 ≤ i.row.base ∧ i.row.base + i.row.pageCross.toNat ≤ 7 := by
  cases i <;> exact ⟨Nat.le_of_ble_eq_true rfl, Nat.le_of_ble_eq_true rfl⟩

/-- A branch has base 2 and no `*` (R300). -/
theorem row_of_branch {i : Instr} {o : BranchOp} {rel : Byte} (h : i.form = .branch o rel) :
    i.row.base = 2 ∧ i.row.pageCross = false := by
  cases i <;> cases h <;> exact ⟨rfl, rfl⟩

theorem cost_bounds (i : Instr) (cross : Bool) : 2 ≤ cost i cross 0 ∧ cost i cross 0 ≤ 7 := by
  have hbase := row_base_bounds i
  have hpenalty : (if i.row.pageCross && cross then 1 else 0) ≤ i.row.pageCross.toNat := by
    cases i.row.pageCross <;> cases cross <;> decide
  unfold cost
  omega

theorem cost_bounds_of_branch {i : Instr} {o : BranchOp} {rel : Byte} (h : i.form = .branch o rel) {extra : Nat}
    (hextra : extra ≤ 2) : 2 ≤ cost i false extra ∧ cost i false extra ≤ 7 := by
  obtain ⟨hbase, hstar⟩ := row_of_branch h
  simp only [cost, hbase, hstar, Bool.and_self, Bool.false_eq_true, if_false]
  omega

theorem readExecutor_cycles {σ : Type} (o : ReadOp) (m : Byte) (c : Cpu σ) :
    (readExecutor o m c).cycles = c.cycles := by cases o <;> rfl

theorem impliedExecutor_cycles (o : ImpliedOp) (c : Cpu Memory) :
    (impliedExecutor Bus.ram o c).cycles = c.cycles := by
  cases o with
  | brk => rw [impliedExecutor, brkOp_ram]
  | _ => rfl

/-- An instruction charges 2 to 7 cycles (R440, R441). -/
theorem exec_cycles {i : Instr} {s t : State} (h : exec i s = .next t) :
    ∃ n, (2 ≤ n ∧ n ≤ 7) ∧ t.cycles = s.cycles + n := by
  cases effect_of_exec h with
  | read o src hf => exact ⟨_, cost_bounds i _, congrArg (· + _) (readExecutor_cycles o _ _)⟩
  | store o dst hf mem => exact ⟨_, cost_bounds i _, rfl⟩
  | modifyAccumulator o hf => exact ⟨_, cost_bounds i _, rfl⟩
  | modifyMemory o m hf v mem => exact ⟨_, cost_bounds i _, rfl⟩
  | branchTaken o rel hf extra hextra => exact ⟨_, cost_bounds_of_branch hf hextra, rfl⟩
  | branchUntaken o rel hf => exact ⟨_, cost_bounds i _, rfl⟩
  | jump m hf => exact ⟨_, cost_bounds i _, rfl⟩
  | call target hf mem => exact ⟨_, cost_bounds i _, rfl⟩
  | implied o hf => exact ⟨_, cost_bounds i _, congrArg (· + _) (impliedExecutor_cycles o _)⟩

/-! ## A part of the state, and the forms that write it -/

/-- `part` of the core is written by instructions of the forms in `Writes` alone, and by no move of PC, no charge of
cycles and no write of memory. -/
structure WrittenOnlyBy {α : Type} (part : Cpu Memory → α) (Writes : Form → Prop) : Prop where
  rest : ∀ (c : Cpu Memory) (pc : Word) (cycles : Nat) (mem : Memory),
    part { c with pc := pc, cycles := cycles, mem := mem } = part c
  read : ∀ (o : ReadOp) (src : ReadOperand) (m : Byte) (c : Cpu Memory),
    Writes (.read o src) ∨ part (readExecutor o m c) = part c
  modify : ∀ (o : ModifyOp) (target : ModifyOperand) (v : Byte) (c : Cpu Memory),
    Writes (.modify o target) ∨ part { c with p := (byteFunction o v c.p).2 } = part c
  accumulator : ∀ (o : ModifyOp) (c : Cpu Memory) (v : Byte),
    Writes (.modify o .accumulator) ∨ part { c with a := v } = part c
  call : ∀ (target : Word) (c : Cpu Memory) (sp : Byte), Writes (.call target) ∨ part { c with sp := sp } = part c
  implied : ∀ (o : ImpliedOp) (c : Cpu Memory),
    Writes (.implied o) ∨ part (impliedExecutor Bus.ram o c) = part c

theorem WrittenOnlyBy.exec {α : Type} {part : Cpu Memory → α} {Writes : Form → Prop} (hw : WrittenOnlyBy part Writes)
    {i : Instr} {s t : State} (h : exec i s = .next t) : Writes i.form ∨ part t.toCpu = part s.toCpu := by
  cases effect_of_exec h with
  | read o src hf =>
    rw [hf]
    refine (hw.read o src (s.load src) (s.toCpu.advance i.length)).imp_right fun h => ?_
    exact (hw.rest _ _ _ _).trans (h.trans (hw.rest s.toCpu _ _ _))
  | store o dst hf mem => exact .inr (hw.rest s.toCpu _ _ _)
  | modifyAccumulator o hf =>
    rw [hf]
    obtain h | hp := hw.modify o .accumulator s.a s.toCpu
    · exact .inl h
    · refine (hw.accumulator o { s.toCpu with p := (byteFunction o s.a s.p).2 } (byteFunction o s.a s.p).1).imp_right
        fun ha => ?_
      exact (hw.rest { s.toCpu with a := (byteFunction o s.a s.p).1, p := (byteFunction o s.a s.p).2 } _ _ _).trans
        (ha.trans hp)
  | modifyMemory o m hf v mem =>
    rw [hf]
    exact (hw.modify o (.memory m) v s.toCpu).imp_right fun hp =>
      (hw.rest { s.toCpu with p := (byteFunction o v s.p).2 } _ _ _).trans hp
  | branchTaken o rel hf extra hextra => exact .inr (hw.rest s.toCpu _ _ _)
  | branchUntaken o rel hf => exact .inr (hw.rest s.toCpu _ _ _)
  | jump m hf => exact .inr (hw.rest s.toCpu _ _ _)
  | call target hf mem =>
    rw [hf]
    exact (hw.call target s.toCpu (s.sp - 2)).imp_right fun hsp =>
      (hw.rest { s.toCpu with sp := s.sp - 2 } _ _ _).trans hsp
  | implied o hf =>
    rw [hf]
    refine (hw.implied o (s.toCpu.advance i.length)).imp_right fun h => ?_
    exact (hw.rest _ _ _ _).trans (h.trans (hw.rest s.toCpu _ _ _))

end Sys2Proof.Machine
end

section
/-! # Proofs: which forms write which part of the state -/

namespace Sys2Proof.Machine

/-! ## The registers (R101, R102) -/

theorem a_writtenOnlyBy : WrittenOnlyBy (fun c => c.a) fun f =>
    f.op ∈ [Op.read .adc, .read .sbc, .read .and, .read .ora, .read .eor, .read .lda,
      .implied .txa, .implied .tya, .implied .pla] ∨ ∃ o, f = .modify o .accumulator where
  rest _ _ _ _ := rfl
  read o src m c := by
    cases o with
    | adc | sbc | and | ora | eor | lda => simp [Form.op]
    | _ => exact .inr rfl
  modify _ _ _ _ := .inr rfl
  accumulator o _ _ := .inl (.inr ⟨o, rfl⟩)
  call _ _ _ := .inr rfl
  implied o c := by
    cases o with
    | txa | tya | pla => simp [Form.op]
    | brk => rw [impliedExecutor, brkOp_ram]; exact .inr rfl
    | _ => exact .inr rfl

theorem x_writtenOnlyBy : WrittenOnlyBy (fun c => c.x) fun f =>
    f.op ∈ [Op.read .ldx, .implied .tax, .implied .tsx, .implied .inx, .implied .dex] where
  rest _ _ _ _ := rfl
  read o src m c := by
    cases o with
    | ldx => simp [Form.op]
    | _ => exact .inr rfl
  modify _ _ _ _ := .inr rfl
  accumulator _ _ _ := .inr rfl
  call _ _ _ := .inr rfl
  implied o c := by
    cases o with
    | tax | tsx | inx | dex => simp [Form.op]
    | brk => rw [impliedExecutor, brkOp_ram]; exact .inr rfl
    | _ => exact .inr rfl

theorem y_writtenOnlyBy : WrittenOnlyBy (fun c => c.y) fun f =>
    f.op ∈ [Op.read .ldy, .implied .tay, .implied .iny, .implied .dey] where
  rest _ _ _ _ := rfl
  read o src m c := by
    cases o with
    | ldy => simp [Form.op]
    | _ => exact .inr rfl
  modify _ _ _ _ := .inr rfl
  accumulator _ _ _ := .inr rfl
  call _ _ _ := .inr rfl
  implied o c := by
    cases o with
    | tay | iny | dey => simp [Form.op]
    | brk => rw [impliedExecutor, brkOp_ram]; exact .inr rfl
    | _ => exact .inr rfl

theorem sp_writtenOnlyBy : WrittenOnlyBy (fun c => c.sp) fun f =>
    f.op ∈ [Op.implied .txs, .implied .brk, .jsr, .implied .rts, .implied .rti, .implied .pha, .implied .php,
      .implied .pla, .implied .plp] where
  rest _ _ _ _ := rfl
  read o _ _ _ := .inr (by cases o <;> rfl)
  modify _ _ _ _ := .inr rfl
  accumulator _ _ _ := .inr rfl
  call _ _ _ := .inl (by simp [Form.op])
  implied o c := by
    cases o with
    | txs | brk | rts | rti | pha | php | pla | plp => simp [Form.op]
    | _ => exact .inr rfl

/-- INC and DEC have no accumulator form (R300). -/
theorem op_of_accumulator_form {i : Instr} {o : ModifyOp} (h : i.form = .modify o .accumulator) :
    o ∈ [ModifyOp.asl, .lsr, .rol, .ror] := by
  cases i <;> cases h <;> decide

/-- Settles O20: each register is written by the forms of its row alone. -/
theorem registersAreWrittenOnlyByTheirWriters : Obligations.RegistersAreWrittenOnlyByTheirWriters := by
  intro i s t h
  refine ⟨fun ha => ?_, (x_writtenOnlyBy.exec h).resolve_right, (y_writtenOnlyBy.exec h).resolve_right,
    (sp_writtenOnlyBy.exec h).resolve_right⟩
  exact ((a_writtenOnlyBy.exec h).resolve_right ha).imp_right fun ⟨o, hf⟩ => ⟨o, op_of_accumulator_form hf, hf⟩

/-! ## The flags (R115) -/

/-- The rows of Z and of N in R115. -/
def writersOfZN : List Op :=
  [Op.read .adc, .read .sbc, .read .and, .read .ora, .read .eor, .read .bit, .read .cmp, .read .cpx,
    .read .cpy, .modify .asl, .modify .lsr, .modify .rol, .modify .ror, .modify .inc, .modify .dec, .implied .inx,
    .implied .iny, .implied .dex, .implied .dey, .read .lda, .read .ldx, .read .ldy, .implied .tax, .implied .tay,
    .implied .txa, .implied .tya, .implied .tsx, .implied .pla, .implied .plp, .implied .rti]

theorem c_writtenOnlyBy : WrittenOnlyBy (fun c => c.p.c) fun f =>
    f.op ∈ [Op.read .adc, .read .sbc, .read .cmp, .read .cpx, .read .cpy, .modify .asl, .modify .lsr,
      .modify .rol, .modify .ror, .implied .sec, .implied .clc, .implied .plp, .implied .rti] where
  rest _ _ _ _ := rfl
  read o src m c := by
    cases o with
    | adc | sbc | cmp | cpx | cpy => simp [Form.op]
    | _ => exact .inr rfl
  modify o _ _ _ := by
    cases o with
    | asl | lsr | rol | ror => simp [Form.op]
    | _ => exact .inr rfl
  accumulator _ _ _ := .inr rfl
  call _ _ _ := .inr rfl
  implied o c := by
    cases o with
    | sec | clc | plp | rti => simp [Form.op]
    | brk => rw [impliedExecutor, brkOp_ram]; exact .inr rfl
    | _ => exact .inr rfl

/-- Every operation that writes Z or N stands in their row, whichever of the two `part` is. -/
theorem zn_writtenOnlyBy {part : Flags → Bool}
    (hpart : ∀ (p : Flags) (c i d b u v : Bool), part { p with c := c, i := i, d := d, b := b, u := u, v := v } = part p) :
    WrittenOnlyBy (fun c => part c.p) (fun f => f.op ∈ writersOfZN) where
  rest _ _ _ _ := rfl
  read o _ _ _ := .inl (by cases o <;> simp [Form.op, writersOfZN])
  modify o _ _ _ := .inl (by cases o <;> simp [Form.op, writersOfZN])
  accumulator _ _ _ := .inr rfl
  call _ _ _ := .inr rfl
  implied o c := by
    cases o with
    | sec | clc | sed | cld | sei | cli | clv => exact .inr (hpart c.p _ _ _ _ _ _)
    | brk => rw [impliedExecutor, brkOp_ram]; exact .inr (hpart c.p _ _ _ _ _ _)
    | txs | pha | php | rts | nop => exact .inr rfl
    | _ => exact .inl (by simp [Form.op, writersOfZN])

theorem i_writtenOnlyBy : WrittenOnlyBy (fun c => c.p.i) fun f =>
    f.op ∈ [Op.implied .sei, .implied .cli, .implied .plp, .implied .rti, .implied .brk] where
  rest _ _ _ _ := rfl
  read o _ _ _ := .inr (by cases o <;> rfl)
  modify o _ _ _ := .inr (by cases o <;> rfl)
  accumulator _ _ _ := .inr rfl
  call _ _ _ := .inr rfl
  implied o c := by
    cases o with
    | sei | cli | plp | rti | brk => simp [Form.op]
    | _ => exact .inr rfl

theorem d_writtenOnlyBy : WrittenOnlyBy (fun c => c.p.d) fun f =>
    f.op ∈ [Op.implied .sed, .implied .cld, .implied .plp, .implied .rti] where
  rest _ _ _ _ := rfl
  read o _ _ _ := .inr (by cases o <;> rfl)
  modify o _ _ _ := .inr (by cases o <;> rfl)
  accumulator _ _ _ := .inr rfl
  call _ _ _ := .inr rfl
  implied o c := by
    cases o with
    | sed | cld | plp | rti => simp [Form.op]
    | brk => rw [impliedExecutor, brkOp_ram]; exact .inr rfl
    | _ => exact .inr rfl

/-- B and U together: only a pull of P writes them. -/
theorem bu_writtenOnlyBy : WrittenOnlyBy (fun c => (c.p.b, c.p.u)) fun f =>
    f.op ∈ [Op.implied .plp, .implied .rti] where
  rest _ _ _ _ := rfl
  read o _ _ _ := .inr (by cases o <;> rfl)
  modify o _ _ _ := .inr (by cases o <;> rfl)
  accumulator _ _ _ := .inr rfl
  call _ _ _ := .inr rfl
  implied o c := by
    cases o with
    | plp | rti => simp [Form.op]
    | brk => rw [impliedExecutor, brkOp_ram]; exact .inr rfl
    | _ => exact .inr rfl

theorem v_writtenOnlyBy : WrittenOnlyBy (fun c => c.p.v) fun f =>
    f.op ∈ [Op.read .adc, .read .sbc, .read .bit, .implied .clv, .implied .plp, .implied .rti] where
  rest _ _ _ _ := rfl
  read o src m c := by
    cases o with
    | adc | sbc | bit => simp [Form.op]
    | _ => exact .inr rfl
  modify o _ _ _ := .inr (by cases o <;> rfl)
  accumulator _ _ _ := .inr rfl
  call _ _ _ := .inr rfl
  implied o c := by
    cases o with
    | clv | plp | rti => simp [Form.op]
    | brk => rw [impliedExecutor, brkOp_ram]; exact .inr rfl
    | _ => exact .inr rfl

/-- Settles O21: each flag is written by the forms of its row alone. -/
theorem flagsAreWrittenOnlyByTheirWriters : Obligations.FlagsAreWrittenOnlyByTheirWriters := by
  intro i s t h
  have hz := zn_writtenOnlyBy (part := Flags.z) fun _ _ _ _ _ _ _ => rfl
  have hn := zn_writtenOnlyBy (part := Flags.n) fun _ _ _ _ _ _ _ => rfl
  have hbu := bu_writtenOnlyBy.exec h
  exact ⟨(c_writtenOnlyBy.exec h).resolve_right, (hz.exec h).resolve_right, (hn.exec h).resolve_right,
    (i_writtenOnlyBy.exec h).resolve_right, (d_writtenOnlyBy.exec h).resolve_right,
    fun hb => hbu.resolve_right fun heq => hb (congrArg Prod.fst heq),
    fun hu => hbu.resolve_right fun heq => hu (congrArg Prod.snd heq),
    (v_writtenOnlyBy.exec h).resolve_right⟩

/-! ## The interrupt inputs and the fault latch (R122, R123) -/

/-- No form writes them. -/
theorem control_writtenOnlyBy : WrittenOnlyBy (fun c => (c.nmiPending, c.irqLine, c.fault)) fun _ => False where
  rest _ _ _ _ := rfl
  read o _ _ _ := .inr (by cases o <;> rfl)
  modify _ _ _ _ := .inr rfl
  accumulator _ _ _ := .inr rfl
  call _ _ _ := .inr rfl
  implied o c := by
    cases o with
    | brk => rw [impliedExecutor, brkOp_ram]; exact .inr rfl
    | _ => exact .inr rfl

theorem exec_control {i : Instr} {s t : State} (h : exec i s = .next t) :
    t.nmiPending = s.nmiPending ∧ t.irqLine = s.irqLine ∧ t.fault = s.fault := by
  have := (control_writtenOnlyBy.exec h).resolve_left id
  simpa using this

/-- Taking an interrupt leaves no NMI pending: it takes the NMI first (R1110). -/
theorem nmiPending_acknowledge {σ : Type} {c : Cpu σ} {src : Interrupt} (h : c.interruptPending = some src) :
    (c.acknowledge src).nmiPending = false := by
  cases src with
  | nmi => rfl
  | irq =>
    cases hn : c.nmiPending with
    | false => exact hn
    | true => simp [Cpu.interruptPending_of_nmi c hn] at h

/-- Settles O23: by the cases of a step. -/
theorem instructionsLeaveTheControlStateAlone : Obligations.InstructionsLeaveTheControlStateAlone := by
  refine ⟨fun i s t h => exec_control h, fun s t h => ?_⟩
  obtain ⟨hf, ⟨src, hp, rfl⟩ | ⟨hp, opcode, ho, rfl⟩ | ⟨hp, i, hi, hexec⟩⟩ := step_cases h
  · rw [Cpu.takeInterrupt_ram]
    exact ⟨rfl, nmiPending_acknowledge hp, hf, by simp [hf]⟩
  · obtain ⟨hn, -⟩ := (Cpu.interruptPending_eq_none _).mp hp
    refine ⟨rfl, hn, hf, fun opcode' pc hlatch => ?_⟩
    cases hlatch
    exact ⟨rfl, rfl⟩
  · obtain ⟨hn, -⟩ := (Cpu.interruptPending_eq_none _).mp hp
    obtain ⟨hnmi, hirq, hfault⟩ := exec_control hexec
    exact ⟨hirq, hnmi.trans hn, hf, by simp [hfault, hf]⟩

/-! ## Cycles -/

/-- Settles O16: by the cases of a step. -/
theorem stepChargesTwoToSevenCyclesOrLatches : Obligations.StepChargesTwoToSevenCyclesOrLatches := by
  intro s t h
  obtain ⟨hf, ⟨src, hp, rfl⟩ | ⟨hp, opcode, ho, rfl⟩ | ⟨hp, i, hi, hexec⟩⟩ := step_cases h
  · left
    rw [Cpu.takeInterrupt_ram]
    exact ⟨hf, by simp, by simp⟩
  · exact .inr ⟨by simp, rfl⟩
  · obtain ⟨n, ⟨h2, h7⟩, hn⟩ := exec_cycles hexec
    obtain ⟨-, -, hfault⟩ := exec_control hexec
    exact .inl ⟨hfault.trans hf, by omega, by omega⟩

/-! ## PC -/

theorem readExecutor_pc {σ : Type} (o : ReadOp) (m : Byte) (c : Cpu σ) : (readExecutor o m c).pc = c.pc := by
  cases o <;> rfl

theorem impliedExecutor_pc {o : ImpliedOp} (ho : o ∉ [ImpliedOp.rts, .brk, .rti]) (c : Cpu Memory) :
    (impliedExecutor Bus.ram o c).pc = c.pc := by
  cases o with
  | rts | brk | rti => simp at ho
  | _ => rfl

/-- An instruction that transfers no control moves PC past itself (R103). -/
theorem exec_pc_of_not_transfer {i : Instr} {s t : State} (h : exec i s = .next t)
    (hb : ∀ o rel, i.form ≠ .branch o rel) (ho : i.op ∉ [Op.jmp, .jsr, .implied .rts, .implied .brk, .implied .rti]) :
    t.pc = s.pc + BitVec.ofNat 16 i.length := by
  cases effect_of_exec h with
  | read o src hf => exact readExecutor_pc o _ _
  | store o dst hf mem => rfl
  | modifyAccumulator o hf => rfl
  | modifyMemory o m hf v mem => rfl
  | branchTaken o rel hf extra hextra => exact absurd hf (hb o rel)
  | branchUntaken o rel hf => rfl
  | jump m hf => simp [Instr.op, hf, Form.op] at ho
  | call target hf mem => simp [Instr.op, hf, Form.op] at ho
  | implied o hf =>
    refine impliedExecutor_pc ?_ (s.toCpu.advance i.length)
    simpa [Instr.op, hf, Form.op] using ho

/-- A branch leaves PC past itself, or at its target (R700). -/
theorem exec_pc_of_branch {i : Instr} {o : BranchOp} {rel : Byte} {s t : State} (h : exec i s = .next t)
    (hb : i.form = .branch o rel) : t.pc = s.pc + 2 ∨ t.pc = s.pc + 2 + sext16 rel := by
  have hlen : i.length = 2 := by simp [Instr.length, Instr.mode, hb, Form.mode, Mode.operandBytes]
  rw [exec_branch s hb] at h
  cases hc : branchCondition o s.p with
  | true =>
    rw [runBranch_taken hc, hlen] at h
    cases h
    exact .inr rfl
  | false =>
    rw [runBranch_untaken hc, hlen] at h
    cases h
    exact .inl rfl

theorem toNat_add_sext16 (w : Word) (b : Byte) : ((w + sext16 b).toNat : Int) = (w.toNat + b.toInt) % 65536 := by
  have h : (sext16 b).toNat = (b.toInt % 65536).toNat := BitVec.toNat_ofInt _
  rw [BitVec.toNat_add, h]
  omega

/-- Settles O24: the move past the instruction and the branch target, read as numbers. -/
theorem pcIsSequentialButForTransfers : Obligations.PcIsSequentialButForTransfers := by
  refine ⟨fun i s t h hb ho => ?_, fun i o rel s t h hb => ?_⟩
  · rw [exec_pc_of_not_transfer h hb ho, BitVec.toNat_add, BitVec.toNat_ofNat, Nat.add_mod_mod]
  · obtain hpc | hpc := exec_pc_of_branch h hb
    · exact .inl (by rw [hpc, BitVec.toNat_add]; rfl)
    · have h2 : (s.pc + 2).toNat = (s.pc.toNat + 2) % 65536 := BitVec.toNat_add s.pc 2
      right
      rw [hpc, toNat_add_sext16, h2]
      omega

/-! ## Reset and the host's calls -/

/-- With no fault latched the invariant is that of memory. -/
theorem State.inv_of_no_fault {s : State} (hf : s.fault = none) (hm : Memory.wf s.mem = true) : s.inv = true := by
  simp [State.inv, State.latchAgrees, hf, hm]

theorem State.inv_iff {s : State} : s.inv = true ↔ Memory.wf s.mem = true ∧ s.latchAgrees = true := by
  simp [State.inv]

/-- Settles O14: a reset clears the latch and keeps memory, and the two inputs are not in the invariant. -/
theorem invariantHoldsAtReset : Obligations.InvariantHoldsAtReset := by
  have hreset (c : Cpu Memory) (hm : Memory.wf c.mem = true) : (⟨c.hostReset Bus.ram⟩ : State).inv = true := by
    rw [Cpu.hostReset_ram]
    exact State.inv_of_no_fault rfl hm
  refine ⟨State.inv_of_no_fault rfl rfl, ?_, fun memInit hm => hreset _ hm, fun s hs => ⟨?_, hs, fun level => hs⟩,
    fun s => ⟨rfl, rfl, fun level => rfl⟩⟩
  · decide
  · exact hreset _ (State.inv_iff.mp hs).1

end Sys2Proof.Machine
end

section
/-! # Proofs: D alters nothing but the pushes of P -/

namespace Sys2Proof.Machine

/-! ## Instructions that do not push P -/

/-- Only PHP and BRK read D; SED, CLD, PLP and RTI write it whatever it was. -/
theorem impliedExecutor_rewriteDecimal {o : ImpliedOp} (hphp : o ≠ .php) (hbrk : o ≠ .brk) (fd : Bool → Bool)
    (c : Cpu Memory) :
    ∃ gd, impliedExecutor Bus.ram o (c.mapUnread fd id id) = (impliedExecutor Bus.ram o c).mapUnread gd id id := by
  by_cases ho : o ∈ [ImpliedOp.sed, .cld, .php, .brk, .plp, .rti]
  · simp only [List.mem_cons, List.not_mem_nil, or_false, hphp, hbrk, false_or] at ho
    obtain rfl | rfl | rfl | rfl := ho <;> exact ⟨id, rfl⟩
  · exact ⟨fd, impliedExecutor_mapUnread fd id id ho Bus.ram c⟩

theorem eq_php_of_form {i : Instr} (h : i.form = .implied .php) : i = .php := by
  cases i <;> cases h
  rfl

theorem eq_brk_of_form {i : Instr} (h : i.form = .implied .brk) : i = .brk := by
  cases i <;> cases h
  rfl

theorem exec_rewriteDecimal {i : Instr} (hphp : i ≠ .php) (hbrk : i ≠ .brk) (fd : Bool → Bool) {s t : State}
    (h : exec i s = .next t) : ∃ gd, exec i (s.mapUnread fd id id) = .next (t.mapUnread gd id id) := by
  by_cases hi : ∃ o, i.form = .implied o
  · obtain ⟨o, hi⟩ := hi
    obtain ⟨gd, ho⟩ := impliedExecutor_rewriteDecimal (o := o) (fun ho => hphp (eq_php_of_form (ho ▸ hi)))
      (fun ho => hbrk (eq_brk_of_form (ho ▸ hi))) fd (s.toCpu.advance i.length)
    exact ⟨gd, exec_implied_mapUnread fd id id hi h (by rintro _ rfl; exact ho)⟩
  · exact ⟨fd, exec_mapUnread_of_not_implied fd id id (not_exists.mp hi) h⟩

/-! ## The pushed status byte -/

theorem Flags.pushedByInstruction_bit_three (p : Flags) : p.pushedByInstruction.getLsbD 3 = p.d := by
  rw [Flags.getLsbD_pushedByInstruction]
  simp [Flags.bitAt]

theorem Flags.pushedByInterrupt_bit_three (p : Flags) : p.pushedByInterrupt.getLsbD 3 = p.d := by
  rw [Flags.getLsbD_pushedByInterrupt]
  simp [Flags.bitAt]

/-- D stands at no other bit (R110). -/
theorem Flags.bitAt_with_d {k : Nat} (hk : k ≠ 3) (p : Flags) (d : Bool) : Flags.bitAt { p with d := d } k = p.bitAt k := by
  match k, hk with
  | 3, hk => exact absurd rfl hk
  | 0, _ | 1, _ | 2, _ | 4, _ | 5, _ | 6, _ | 7, _ | _ + 8, _ => rfl

/-- The second state is the first with D rewritten, and a status byte at `slot` that may differ from the first's in
bit 3. -/
def SameButPushedDecimal (slot : Word) (d : Bool) (t t' : State) : Prop :=
  t' = { t with p := { t.p with d := d }, mem := t'.mem } ∧
    (∀ addr : Word, addr ≠ slot → t'.peek addr = t.peek addr) ∧
    ∀ k : Nat, k ≠ 3 → (t'.peek slot).getLsbD k = (t.peek slot).getLsbD k

theorem sameButPushedDecimal_of_write {slot : Word} {d : Bool} {t t' : State} (m : Memory) {v v' : Byte}
    (ht : t.mem = Memory.write m slot v) (ht' : t'.mem = Memory.write m slot v')
    (hstate : t' = { t with p := { t.p with d := d }, mem := t'.mem })
    (hv : ∀ k : Nat, k ≠ 3 → v'.getLsbD k = v.getLsbD k) : SameButPushedDecimal slot d t t' := by
  refine ⟨hstate, fun addr ha => ?_, fun k hk => ?_⟩
  · simp only [State.peek, ht, ht', Memory.read_write_other _ _ _ _ ha]
  · simpa only [State.peek, ht, ht', Memory.read_write_same] using hv k hk

theorem Flags.pushedByInstruction_with_d (p : Flags) (d : Bool) {k : Nat} (hk : k ≠ 3) :
    (Flags.pushedByInstruction { p with d := d }).getLsbD k = p.pushedByInstruction.getLsbD k := by
  simp only [Flags.getLsbD_pushedByInstruction, Flags.bitAt_with_d hk]

theorem Flags.pushedByInterrupt_with_d (p : Flags) (d : Bool) {k : Nat} (hk : k ≠ 3) :
    (Flags.pushedByInterrupt { p with d := d }).getLsbD k = p.pushedByInterrupt.getLsbD k := by
  simp only [Flags.getLsbD_pushedByInterrupt, Flags.bitAt_with_d hk]

/-! ## The three pushes of P -/

theorem exec_php (s : State) :
    exec .php s = .next
      { s with
        mem := Memory.write s.mem (stackSlot s.sp) s.p.pushedByInstruction
        sp := s.sp - 1
        pc := s.pc + 1
        cycles := s.cycles + 3 } := by
  rw [exec_implied s (o := .php) rfl, impliedExecutor, phpOp_ram]
  rfl

theorem exec_brk (s : State) :
    exec .brk s = .next
      { s with
        mem := Memory.write (Memory.withWordPushed s.mem s.sp (s.pc + 1 + 1)) (stackSlot (s.sp - 2))
          s.p.pushedByInstruction
        sp := s.sp - 3
        pc := Memory.readWord s.mem Config.irqVector
        p := { s.p with i := true }
        cycles := s.cycles + 7 } := by
  rw [exec_implied s (o := .brk) rfl, impliedExecutor, brkOp_ram]
  rfl

/-- A step from a state in which an interrupt is pending takes it. -/
theorem step_takes_interrupt {s t : State} (h : step s = .next t) (hq : ¬ s.quiet) :
    s.fault = none ∧ ∃ src, s.toCpu.interruptPending = some src ∧ t = ⟨s.toCpu.takeInterrupt Bus.ram src⟩ := by
  obtain ⟨hf, ⟨src, hp, ht⟩ | ⟨hp, -⟩ | ⟨hp, -⟩⟩ := step_cases h
  · exact ⟨hf, src, hp, ht⟩
  · exact absurd ((Cpu.interruptPending_eq_none _).mp hp) hq
  · exact absurd ((Cpu.interruptPending_eq_none _).mp hp) hq

theorem exec_php_rewriteDecimal {s t : State} (d : Bool) (h : exec .php s = .next t) :
    ∃ t', exec .php { s with p := { s.p with d := d } } = .next t' ∧ SameButPushedDecimal (stackSlot s.sp) d t t' := by
  rw [exec_php] at h
  cases h
  exact ⟨_, exec_php _, sameButPushedDecimal_of_write s.mem rfl rfl rfl fun k hk =>
    Flags.pushedByInstruction_with_d s.p d hk⟩

theorem exec_brk_rewriteDecimal {s t : State} (d : Bool) (h : exec .brk s = .next t) :
    ∃ t', exec .brk { s with p := { s.p with d := d } } = .next t' ∧
      SameButPushedDecimal (stackSlot (s.sp - 2)) d t t' := by
  rw [exec_brk] at h
  cases h
  exact ⟨_, exec_brk _, sameButPushedDecimal_of_write (Memory.withWordPushed s.mem s.sp (s.pc + 1 + 1)) rfl rfl rfl
    fun k hk => Flags.pushedByInstruction_with_d s.p d hk⟩

theorem step_interrupt_rewriteDecimal {s t : State} (d : Bool) (h : step s = .next t) (hq : ¬ s.quiet) :
    ∃ t', step { s with p := { s.p with d := d } } = .next t' ∧
      SameButPushedDecimal (stackSlot (s.sp - 2)) d t t' := by
  obtain ⟨hf, src, hp, rfl⟩ := step_takes_interrupt h hq
  refine ⟨_, step_of_interrupt (src := src) hf hp, ?_⟩
  simp only [Cpu.takeInterrupt_ram]
  refine sameButPushedDecimal_of_write (Memory.withWordPushed s.mem s.sp s.pc) rfl rfl ?_ fun k hk =>
    Flags.pushedByInterrupt_with_d s.p d hk
  cases src <;> rfl

/-- Settles O19: the writers of D, the bit each push gives it, and the two independence lemmas. -/
theorem decimalFlagAltersNothingButPushes : Obligations.DecimalFlagAltersNothingButPushes := by
  refine ⟨fun s t h => ?_, fun s t h => ?_, fun s t h => ?_, fun s t h => ?_, fun s t h => ?_,
    fun i s t d hphp hbrk h => ?_, fun run slot s t d hrun h => ?_⟩
  · cases h
    rfl
  · cases h
    rfl
  · obtain h | h := h
    · rw [exec_implied s (o := .plp) rfl, impliedExecutor, plpOp_ram] at h
      cases h
      rfl
    · rw [exec_implied s (o := .rti) rfl, impliedExecutor, rtiOp_ram] at h
      cases h
      rfl
  · rw [exec_php] at h
    cases h
    simp only [State.peek, Memory.read_write_same, Flags.pushedByInstruction_bit_three]
  · obtain h | ⟨h, hq⟩ := h
    · rw [exec_brk] at h
      cases h
      simp only [State.peek, Memory.read_write_same, Flags.pushedByInstruction_bit_three]
    · obtain ⟨hf, src, hp, rfl⟩ := step_takes_interrupt h hq
      simp only [State.peek, Cpu.takeInterrupt_ram, Memory.read_write_same, Flags.pushedByInterrupt_bit_three]
  · obtain ⟨gd, ht⟩ := exec_rewriteDecimal hphp hbrk (fun _ => d) h
    exact ⟨gd t.p.d, ht⟩
  · obtain ⟨rfl, rfl⟩ | ⟨rfl, rfl⟩ | ⟨rfl, hq, rfl⟩ := hrun
    · exact exec_php_rewriteDecimal d h
    · exact exec_brk_rewriteDecimal d h
    · exact step_interrupt_rewriteDecimal d h hq

end Sys2Proof.Machine
end

section
/-! # Proofs: RAM, the stack primitives, and what an instruction leaves of memory -/

namespace Sys2Proof.Machine

/-! ## RAM: the latest write, and the canonical list (R200, R203, R240) -/

/-- The memory after a sequence of writes, the first of the list first. -/
def Memory.writeAll (m : Memory) (writes : List (Word × Byte)) : Memory :=
  writes.foldl (fun acc w => Memory.write acc w.1 w.2) m

theorem Memory.writeAll_append_singleton (m : Memory) (writes : List (Word × Byte)) (w : Word × Byte) :
    Memory.writeAll m (writes ++ [w]) = Memory.write (Memory.writeAll m writes) w.1 w.2 := by
  simp only [Memory.writeAll, List.foldl_append, List.foldl_cons, List.foldl_nil]

/-- The last write of the sequence to an address decides what is read there. -/
theorem Memory.read_writeAll (m : Memory) (writes : List (Word × Byte)) (addr : Word) :
    Memory.read (Memory.writeAll m writes) addr =
      ((writes.reverse.find? (fun w => w.1 == addr)).map (·.2)).getD (Memory.read m addr) := by
  induction writes using List.reverseRecOn with
  | nil => rfl
  | append_singleton writes w ih =>
    rw [Memory.writeAll_append_singleton, Memory.read_write, List.reverse_concat, List.find?_cons]
    by_cases hw : addr = w.1
    · simp [hw]
    · rw [if_neg hw, ih, beq_false_of_ne (Ne.symm hw)]

theorem Memory.wf_writeAll {m : Memory} (writes : List (Word × Byte)) (hm : Memory.wf m = true) :
    Memory.wf (Memory.writeAll m writes) = true := by
  induction writes using List.reverseRecOn with
  | nil => exact hm
  | append_singleton writes w ih =>
    rw [Memory.writeAll_append_singleton]
    exact Memory.wf_write _ _ ih

theorem Memory.wfFrom_cons_iff {lo k : Nat} {v : Byte} {rest : Memory} :
    Memory.wfFrom lo ((k, v) :: rest) = true ↔
      lo ≤ k ∧ k < 65536 ∧ v ≠ Config.unlistedByte ∧ Memory.wfFrom (k + 1) rest = true := by
  simp only [Memory.wfFrom, Bool.and_eq_true, decide_eq_true_eq, and_assoc]

@[simp] theorem Memory.look_cons_self (k : Nat) (v : Byte) (rest : Memory) :
    Memory.look ((k, v) :: rest) k = v := if_pos rfl

theorem Memory.look_cons_of_ne {k a : Nat} (h : k ≠ a) (v : Byte) (rest : Memory) :
    Memory.look ((k, v) :: rest) a = Memory.look rest a := if_neg h

/-- A canonical memory with a first cell reads otherwise at it than one whose cells all lie above. -/
theorem Memory.look_ne_of_head_lt {lo k : Nat} {v : Byte} {rest m : Memory}
    (hm : Memory.wfFrom lo ((k, v) :: rest) = true) (hm' : Memory.wfFrom (k + 1) m = true) :
    Memory.look ((k, v) :: rest) k ≠ Memory.look m k := by
  obtain ⟨-, -, hv, -⟩ := Memory.wfFrom_cons_iff.mp hm
  rw [Memory.look_cons_self, Memory.look_of_lt hm' (Nat.lt_succ_self k)]
  exact hv

/-- The canonical form is unique: what the memory reads as fixes its cells. -/
theorem Memory.eq_of_look_eq {lo : Nat} {m m' : Memory} (hm : Memory.wfFrom lo m = true)
    (hm' : Memory.wfFrom lo m' = true) (h : ∀ a < 65536, Memory.look m a = Memory.look m' a) : m = m' := by
  induction m generalizing lo m' with
  | nil =>
    cases m' with
    | nil => rfl
    | cons cell rest' =>
      obtain ⟨-, hk, -, -⟩ := Memory.wfFrom_cons_iff.mp hm'
      exact absurd (h _ hk).symm (Memory.look_ne_of_head_lt hm' rfl)
  | cons cell rest ih =>
    obtain ⟨k, v⟩ := cell
    obtain ⟨-, hk, -, hrest⟩ := Memory.wfFrom_cons_iff.mp hm
    cases m' with
    | nil => exact absurd (h k hk) (Memory.look_ne_of_head_lt hm rfl)
    | cons cell' rest' =>
      obtain ⟨k', v'⟩ := cell'
      obtain ⟨-, hk', hv', hrest'⟩ := Memory.wfFrom_cons_iff.mp hm'
      obtain hlt | rfl | hlt := Nat.lt_trichotomy k k'
      · exact absurd (h k hk) (Memory.look_ne_of_head_lt hm (Memory.wfFrom_cons_iff.mpr ⟨hlt, hk', hv', hrest'⟩))
      · have hv : v = v' := by simpa using h k hk
        have hcells : rest = rest' := ih hrest hrest' fun a ha => by
          by_cases hak : k = a
          · rw [Memory.look_of_lt hrest (by omega), Memory.look_of_lt hrest' (by omega)]
          · simpa only [Memory.look_cons_of_ne hak] using h a ha
        rw [hv, hcells]
      · obtain ⟨-, -, hv, -⟩ := Memory.wfFrom_cons_iff.mp hm
        exact absurd (h k' hk').symm
          (Memory.look_ne_of_head_lt hm' (Memory.wfFrom_cons_iff.mpr ⟨hlt, hk, hv, hrest⟩))

theorem Memory.eq_of_read_eq {m m' : Memory} (hm : Memory.wf m = true) (hm' : Memory.wf m' = true)
    (h : ∀ addr : Word, Memory.read m addr = Memory.read m' addr) : m = m' :=
  Memory.eq_of_look_eq hm hm' fun a ha => by
    simpa only [Memory.read, BitVec.toNat_ofNat, Nat.mod_eq_of_lt ha] using h (BitVec.ofNat 16 a)

theorem Memory.toNat_readWord (m : Memory) (addr : Word) :
    (Memory.readWord m addr).toNat = (Memory.read m addr).toNat + 256 * (Memory.read m (addr + 1)).toNat := by
  rw [Memory.readWord, toNat_wordOf]
  omega

/-- Settles O52: the latest write by induction on the sequence from its end, and equality by induction on the cells. -/
theorem ramReadsTheLatestWrite : Obligations.RamReadsTheLatestWrite := by
  refine ⟨fun m writes addr => ⟨?_, Memory.wf_writeAll writes⟩, fun m m' => Memory.eq_of_read_eq, fun m addr => ?_⟩
  · refine (Memory.read_writeAll m writes addr).trans ?_
    cases writes.reverse.find? (fun w => w.1 == addr) <;> rfl
  · have hnext : BitVec.ofNat 16 ((addr.toNat + 1) % 65536) = addr + 1 := by bv_omega
    rw [Memory.toNat_readWord, hnext]

/-! ## The stack primitives on any BUS (R220 to R223) -/

theorem highByte_eq_ofNat (w : Word) : highByte w = BitVec.ofNat 8 (w.toNat / 256) := by
  rw [← toNat_highByte, BitVec.ofNat_toNat, BitVec.setWidth_eq]

theorem lowByte_eq_ofNat (w : Word) : lowByte w = BitVec.ofNat 8 (w.toNat % 256) := by
  rw [← toNat_lowByte, BitVec.ofNat_toNat, BitVec.setWidth_eq]

section
variable {σ : Type} (B : Bus σ) (c : Cpu σ)

theorem Cpu.push_eq (v : Byte) :
    c.push B v = { c with mem := B.writeByte c.mem (stackSlot c.sp) v, sp := c.sp - 1 } := by
  rw [Cpu.push, Cpu.write, stackAddr_eq_stackSlot]

theorem Cpu.pop_eq :
    c.pop B = ((B.readByte c.mem (stackSlot (c.sp + 1))).1,
      { c with sp := c.sp + 1, mem := (B.readByte c.mem (stackSlot (c.sp + 1))).2 }) := by
  rw [Cpu.pop, Cpu.read, stackAddr_eq_stackSlot]

theorem Cpu.toNat_popWord_fst :
    (c.popWord B).1.toNat = 256 * ((c.pop B).2.pop B).1.toNat + (c.pop B).1.toNat := by
  rw [Cpu.popWord, toNat_wordOf, Nat.mul_comm]

end

/-- Settles O51: each primitive's equation, with SP's wrap as the sum modulo 256. -/
theorem stackPrimitivesStayInTheirPage : Obligations.StackPrimitivesStayInTheirPage := by
  refine ⟨fun σ B c v w => ⟨?_, ?_, ?_, rfl, c.toNat_popWord_fst B⟩, fun sp => ?_⟩
  · have hsp : BitVec.ofNat 8 (c.sp.toNat + 255) = c.sp - 1 := by bv_omega
    rw [hsp, Cpu.push_eq]
  · have hsp : BitVec.ofNat 8 (c.sp.toNat + 1) = c.sp + 1 := by bv_omega
    rw [hsp, Cpu.pop_eq]
  · rw [← highByte_eq_ofNat, ← lowByte_eq_ofNat, Cpu.pushWord]
  · have hlt := sp.isLt
    rw [toNat_stackSlot]
    omega

/-! ## What an instruction leaves of memory (R209, R431, R432, R220) -/

theorem readExecutor_mem {σ : Type} (o : ReadOp) (m : Byte) (c : Cpu σ) : (readExecutor o m c).mem = c.mem := by
  cases o <;> rfl

theorem runBranch_mem {σ : Type} (i : Instr) (cond : Flags → Bool) (rel : Byte) (c : Cpu σ) :
    (runBranch i cond rel c).cpu.mem = c.mem := by
  cases h : cond c.p with
  | true => rw [runBranch_taken h]
  | false => rw [runBranch_untaken h]; rfl

/-- Among the operations with mode Implied alone, only the pushing ones write memory. -/
theorem impliedExecutor_ram_mem {o : ImpliedOp} (ho : o ∉ [ImpliedOp.brk, .pha, .php]) (c : Cpu Memory) :
    (impliedExecutor Bus.ram o c).mem = c.mem := by
  cases o with
  | brk | pha | php => exact absurd (by decide) ho
  | _ => rfl

theorem Memory.read_withWordPushed_other (m : Memory) {sp : Byte} (w : Word) {addr : Word}
    (h : addr ≠ stackSlot sp) (h1 : addr ≠ stackSlot (sp - 1)) :
    Memory.read (Memory.withWordPushed m sp w) addr = Memory.read m addr := by
  rw [Memory.withWordPushed, Memory.read_write_other _ _ _ _ h1, Memory.read_write_other _ _ _ _ h]

/-- Settles O22: the memory after each form of instruction, read at an address that the form does not store to. -/
theorem memoryChangesOnlyAtTheStoredBytes : Obligations.MemoryChangesOnlyAtTheStoredBytes := by
  intro i s t h stored addr haddr
  cases hf : i.form with
  | read o src =>
    rw [exec_read s hf] at h
    cases h
    exact congrArg (Memory.read · addr) (readExecutor_mem o _ _)
  | store o dst =>
    simp only [stored, hf, List.mem_singleton] at haddr
    rw [exec_store s hf] at h
    cases h
    exact Memory.read_write_other _ _ _ _ haddr
  | modify o target =>
    cases target with
    | accumulator =>
      rw [exec_modify_accumulator s hf] at h
      cases h
      rfl
    | memory m =>
      simp only [stored, hf, List.mem_singleton] at haddr
      rw [exec_modify_memory s hf] at h
      cases h
      exact Memory.read_write_other _ _ _ _ haddr
  | branch o rel =>
    rw [exec_branch s hf] at h
    cases h
    exact congrArg (Memory.read · addr) (runBranch_mem i _ rel _)
  | jump m =>
    rw [exec_jump s hf] at h
    cases h
    rfl
  | call target =>
    simp only [stored, hf, List.mem_cons, List.not_mem_nil, or_false, not_or] at haddr
    obtain ⟨hhigh, hlow⟩ := haddr
    rw [exec_call s hf, Cpu.pushWord_ram_slots] at h
    cases h
    exact Memory.read_withWordPushed_other _ _ hhigh hlow
  | implied o =>
    rw [exec_implied s hf] at h
    cases o with
    | brk =>
      simp only [stored, hf, List.mem_cons, List.not_mem_nil, or_false, not_or] at haddr
      obtain ⟨hhigh, hlow, hstatus⟩ := haddr
      rw [impliedExecutor, brkOp_ram] at h
      cases h
      exact (Memory.read_write_other _ _ _ _ hstatus).trans (Memory.read_withWordPushed_other _ _ hhigh hlow)
    | pha =>
      simp only [stored, hf, List.mem_singleton] at haddr
      rw [impliedExecutor, phaOp_ram] at h
      cases h
      exact Memory.read_write_other _ _ _ _ haddr
    | php =>
      simp only [stored, hf, List.mem_singleton] at haddr
      rw [impliedExecutor, phpOp_ram] at h
      cases h
      exact Memory.read_write_other _ _ _ _ haddr
    | _ =>
      cases h
      exact congrArg (Memory.read · addr) (impliedExecutor_ram_mem (by decide) _)

end Sys2Proof.Machine
end

section
/-! # Proofs: the accesses of an instruction on a recording BUS, and that recording changes nothing -/

namespace Sys2Proof.Machine

variable {σ : Type} (B : Bus σ)

/-! ## The record after each shared operation -/

/-- The record of a recording BUS: of each access, the oldest first, whether it is a write, and its address. -/
def recordShapes (m : σ × List Access) : List (Bool × Word) := m.2.map Access.shape

@[simp] theorem recordShapes_readByte (m : σ × List Access) (addr : Word) :
    recordShapes (B.recording.readByte m addr).2 = recordShapes m ++ [(false, addr)] := by
  simp [recordShapes]

@[simp] theorem recordShapes_writeByte (m : σ × List Access) (addr : Word) (v : Byte) :
    recordShapes (B.recording.writeByte m addr v) = recordShapes m ++ [(true, addr)] := by
  simp [recordShapes]

section
variable (c : Cpu (σ × List Access))

theorem recordShapes_readWord (addr : Word) :
    recordShapes (c.readWord B.recording addr).2.mem = recordShapes c.mem ++ [(false, addr), (false, addr + 1)] := by
  simp [Cpu.readWord]

theorem recordShapes_zpRead16 (z : Byte) :
    recordShapes (c.zpRead16 B.recording z).2.mem =
      recordShapes c.mem ++ [(false, zext16 z), (false, zext16 (z + 1))] := by
  simp [Cpu.zpRead16]

theorem recordShapes_push (v : Byte) :
    recordShapes (c.push B.recording v).mem = recordShapes c.mem ++ [(true, stackSlot c.sp)] := by
  simp [Cpu.push_eq]

theorem recordShapes_pop :
    recordShapes (c.pop B.recording).2.mem = recordShapes c.mem ++ [(false, stackSlot (c.sp + 1))] := by
  simp [Cpu.pop_eq]

theorem recordShapes_pushWord (w : Word) :
    recordShapes (c.pushWord B.recording w).mem =
      recordShapes c.mem ++ [(true, stackSlot c.sp), (true, stackSlot (c.sp - 1))] := by
  simp [Cpu.pushWord, Cpu.push_eq]

theorem recordShapes_popWord :
    recordShapes (c.popWord B.recording).2.mem =
      recordShapes c.mem ++ [(false, stackSlot (c.sp + 1)), (false, stackSlot (c.sp + 1 + 1))] := by
  simp [Cpu.popWord, Cpu.pop_eq]

theorem recordShapes_enterHandler (returnTo : Word) (status : Byte) (vector : Word) :
    recordShapes (c.enterHandler B.recording returnTo status vector).mem =
      recordShapes c.mem ++ [(true, stackSlot c.sp), (true, stackSlot (c.sp - 1)), (true, stackSlot (c.sp - 1 - 1)),
        (false, vector), (false, vector + 1)] := by
  simp [Cpu.enterHandler, recordShapes_readWord, Cpu.pushWord, Cpu.push_eq]

theorem recordShapes_returnFromHandler :
    recordShapes (c.returnFromHandler B.recording).mem =
      recordShapes c.mem ++ [(false, stackSlot (c.sp + 1)), (false, stackSlot (c.sp + 1 + 1)),
        (false, stackSlot (c.sp + 1 + 1 + 1))] := by
  simp [Cpu.returnFromHandler, recordShapes_popWord, Cpu.pop_eq]

end

/-! ## The record after an addressing mode and after an executor -/

theorem zext16_eq_wordOf (b : Byte) : zext16 b = wordOf 0 b := by
  apply BitVec.eq_of_toNat_eq
  rw [toNat_zext16, toNat_wordOf]
  exact (Nat.zero_add _).symm

theorem wordOf_and_wordOf (h l h' l' : Byte) : wordOf h l &&& wordOf h' l' = wordOf (h &&& h') (l &&& l') :=
  BitVec.and_append

theorem wordOf_or_wordOf (h l h' l' : Byte) : wordOf h l ||| wordOf h' l' = wordOf (h ||| h') (l ||| l') :=
  BitVec.or_append

/-- The high byte of an indirect pointer is read in the page of its low byte (R420). -/
theorem pointerHigh_eq_wordOf (ptr : Word) :
    (ptr &&& 0xFF00) ||| zext16 (lowByte ptr + 1) = wordOf (highByte ptr) (lowByte ptr + 1) := by
  have hmask : (0xFF00 : Word) = wordOf (BitVec.allOnes 8) 0 := rfl
  calc (ptr &&& 0xFF00) ||| zext16 (lowByte ptr + 1)
      = wordOf (highByte ptr) (lowByte ptr) &&& wordOf (BitVec.allOnes 8) 0 ||| wordOf 0 (lowByte ptr + 1) := by
        rw [wordOf_highByte_lowByte, zext16_eq_wordOf, hmask]
    _ = wordOf (highByte ptr &&& BitVec.allOnes 8 ||| 0) (lowByte ptr &&& 0 ||| (lowByte ptr + 1)) := by
        rw [wordOf_and_wordOf, wordOf_or_wordOf]
    _ = wordOf (highByte ptr) (lowByte ptr + 1) := by rw [BitVec.and_allOnes]; simp

theorem recordShapes_locate (c : Cpu (σ × List Access)) (m : MemOperand) :
    recordShapes (locate B.recording c m).cpu.mem =
      recordShapes c.mem ++ (pointerAddresses c m).map (false, ·) := by
  cases m with
  | indirect ptr =>
    rw [pointerAddresses, ← pointerHigh_eq_wordOf]
    simp [locate]
  | indexedIndirectX z => exact recordShapes_zpRead16 B c (z + c.x)
  | indirectIndexedY z => exact recordShapes_zpRead16 B c z
  | _ => exact (List.append_nil _).symm

theorem recordShapes_impliedExecutor (o : ImpliedOp) (c : Cpu (σ × List Access)) :
    recordShapes (impliedExecutor B.recording o c).mem = recordShapes c.mem ++ impliedAccesses c.sp o := by
  have hsub : c.sp - 1 - 1 = c.sp - 2 := by bv_omega
  have hadd2 : c.sp + 1 + 1 = c.sp + 2 := by bv_omega
  have hadd3 : c.sp + 2 + 1 = c.sp + 3 := by bv_omega
  cases o with
  | pha => exact recordShapes_push B c _
  | php => exact recordShapes_push B c _
  | pla => exact recordShapes_pop B c
  | plp => exact recordShapes_pop B c
  | rts =>
    rw [impliedAccesses, ← hadd2]
    exact recordShapes_popWord B c
  | rti =>
    rw [impliedAccesses, ← hadd3, ← hadd2]
    exact recordShapes_returnFromHandler B c
  | brk =>
    rw [impliedAccesses, ← hsub]
    exact recordShapes_enterHandler B c _ _ _
  | _ => exact (List.append_nil _).symm

/-- The accesses of an instruction, put behind those already on the record. -/
theorem recordShapes_executeOn (i : Instr) (c : Cpu (σ × List Access)) :
    recordShapes (executeOn B.recording i c).cpu.mem =
      recordShapes c.mem ++ accessesOf c (fun m => (locate B.recording c m).ea) i.form := by
  unfold executeOn
  cases i.form with
  | read o src =>
    cases src with
    | immediate b => simp [runRead, accessesOf, readExecutor_mem]
    | memory m => simp [runRead, accessesOf, readExecutor_mem, locate_advance, recordShapes_locate]
  | store o dst => simp [runStore, accessesOf, locate_advance, recordShapes_locate]
  | modify o target =>
    cases target with
    | accumulator => exact (List.append_nil _).symm
    | memory m => simp [runModify, accessesOf, locate_advance, recordShapes_locate]
  | branch o rel => simp [runBranch_mem, accessesOf]
  | jump m => simp [runJump, accessesOf, locate_advance, recordShapes_locate]
  | call target => exact recordShapes_pushWord B (c.advance i.length) _
  | implied o => exact recordShapes_impliedExecutor B o (c.advance i.length)

/-- Settles O53: the accesses put behind an empty record. -/
theorem instructionsMakeExactlyTheirAccesses : Obligations.InstructionsMakeExactlyTheirAccesses := by
  intro σ B i c hempty
  have hrecord : recordShapes c.mem = [] := by rw [recordShapes, hempty, List.map_nil]
  have h := recordShapes_executeOn B i c
  rwa [hrecord, List.nil_append] at h

/-! ## Recording changes nothing: each operation commutes with leaving the record out -/

/-- The result of `Resolve` on a recording BUS, with the record left out. -/
def Located.forget (l : Located (σ × List Access)) : Located σ := ⟨l.ea, l.cross, l.cpu.forget⟩

/-- A run on a recording BUS, with the record left out. -/
def Ran.forget (r : Ran (σ × List Access)) : Ran σ := ⟨r.cpu.forget, r.cost⟩

/-- What a fetch on a recording BUS gives, with the record left out. -/
def Fetched.forget : Fetched (σ × List Access) → Fetched σ
  | .instr i c => .instr i c.forget
  | .invalid opcode c => .invalid opcode c.forget

theorem read_forget (c : Cpu (σ × List Access)) (addr : Word) :
    c.forget.read B addr = ((c.read B.recording addr).1, (c.read B.recording addr).2.forget) := rfl

theorem locate_forget (c : Cpu (σ × List Access)) (m : MemOperand) :
    locate B c.forget m = (locate B.recording c m).forget := by
  cases m <;> rfl

theorem readExecutor_forget (o : ReadOp) (v : Byte) (c : Cpu (σ × List Access)) :
    readExecutor o v c.forget = (readExecutor o v c).forget := by
  cases o <;> rfl

theorem storedRegister_forget (o : StoreOp) (c : Cpu (σ × List Access)) :
    storedRegister o c.forget = storedRegister o c := by
  cases o <;> rfl

theorem impliedExecutor_forget (o : ImpliedOp) (c : Cpu (σ × List Access)) :
    impliedExecutor B o c.forget = (impliedExecutor B.recording o c).forget := by
  cases o <;> rfl

theorem runBranch_forget (i : Instr) (cond : Flags → Bool) (rel : Byte) (c : Cpu (σ × List Access)) :
    runBranch i cond rel c.forget = (runBranch i cond rel c).forget := by
  cases h : cond c.p with
  | true => rw [runBranch_taken h, runBranch_taken (c := c.forget) h]; rfl
  | false => rw [runBranch_untaken h, runBranch_untaken (c := c.forget) h]; rfl

theorem executeOn_forget (i : Instr) (c : Cpu (σ × List Access)) :
    executeOn B i c.forget = (executeOn B.recording i c).forget := by
  have hadvance : c.forget.advance i.length = (c.advance i.length).forget := rfl
  unfold executeOn
  cases i.form with
  | read o src =>
    cases src with
    | immediate b => simp only [runRead, hadvance, readExecutor_forget]; rfl
    | memory m =>
      simp only [runRead, hadvance, locate_forget]
      simp only [Located.forget, read_forget, readExecutor_forget]
      rfl
  | store o dst =>
    simp only [runStore, hadvance, locate_forget, Located.forget, storedRegister_forget]
    rfl
  | modify o target =>
    cases target with
    | accumulator => rfl
    | memory m => simp only [runModify, hadvance, locate_forget]; rfl
  | branch o rel => exact runBranch_forget i _ rel c
  | jump m => simp only [runJump, hadvance, locate_forget]; rfl
  | call target => rfl
  | implied o => simp only [runImplied, hadvance, impliedExecutor_forget]; rfl

theorem fetch_forget (c : Cpu (σ × List Access)) : c.forget.fetch B = (c.fetch B.recording).forget := by
  have hread : (c.forget.read B c.forget.pc).1 = (c.read B.recording c.pc).1 := rfl
  simp only [Cpu.fetch, hread]
  cases cellAt (c.read B.recording c.pc).1 <;> rfl

theorem takeInterrupt_forget (c : Cpu (σ × List Access)) (src : Interrupt) :
    c.forget.takeInterrupt B src = (c.takeInterrupt B.recording src).forget := by
  cases src <;> rfl

/-- Settles O55: a step with the record left out, in each case of `step()`. -/
theorem recordingChangesNothing : Obligations.RecordingChangesNothing := by
  intro σ B c
  have hfault : c.forget.fault = c.fault := rfl
  have hpending : c.forget.interruptPending = c.interruptPending := rfl
  simp only [stepOn, hfault, hpending, fetch_forget]
  cases c.fault with
  | some latch => exact ⟨rfl, rfl⟩
  | none =>
    cases c.interruptPending with
    | some src => exact ⟨rfl, (takeInterrupt_forget B c src).symm⟩
    | none =>
      cases c.fetch B.recording with
      | invalid opcode c1 => exact ⟨rfl, rfl⟩
      | instr i c1 =>
        simp only [Fetched.forget, executeOn_forget]
        exact ⟨rfl, rfl⟩

end Sys2Proof.Machine
end

section
/-! # Proofs: the encoding -/

namespace Sys2Proof.Machine

/-! ## Each instruction stands in the map's cell at its own opcode byte -/

/-- The instruction is one of those that a cell makes from operand bytes. -/
def MadeBy (i : Instr) : Cell → Prop
  | .invalid => False
  | .implied j _ _ => j = i
  | .oneByte make _ _ => ∃ b, make b = i
  | .twoBytes make _ _ => ∃ w, make w = i

/-- The rows of R300, looked up in the map of R305. -/
theorem madeBy_cellAt (i : Instr) : MadeBy i (cellAt i.row.opcode) := by
  cases i with
  | aslAcc | lsrAcc | rolAcc | rorAcc | brk | php | clc | plp | sec | rti | pha | cli | rts | pla | sei | dey | txa
  | tya | txs | tay | tax | clv | tsx | iny | dex | cld | inx | nop | sed => exact rfl
  | _ v =>
    -- The cell is found by evaluation only once its opcode byte stands free of the operand `v`.
    dsimp only [Instr.row]
    exact Exists.intro v rfl

/-- What stands in the map at the opcode byte of an instruction, and what that cell makes of other operand bytes. -/
inductive CellOf (i : Instr) : Prop where
  | implied (cell : cellAt i.row.opcode = .implied i i.row.base i.row.pageCross) (encoding : encode i = [i.row.opcode])
  | oneByte (make : Byte → Instr) (b : Byte) (made : make b = i)
      (cell : cellAt i.row.opcode = .oneByte make i.row.base i.row.pageCross)
      (encoding : ∀ c, encode (make c) = [i.row.opcode, c])
      (same : ∀ c, (make c).op = i.op ∧ (make c).mode = i.mode)
  | twoBytes (make : Word → Instr) (w : Word) (made : make w = i)
      (cell : cellAt i.row.opcode = .twoBytes make i.row.base i.row.pageCross)
      (encoding : ∀ v, encode (make v) = [i.row.opcode, lowByte v, highByte v])
      (same : ∀ v, (make v).op = i.op ∧ (make v).mode = i.mode)

theorem cellOf (i : Instr) : CellOf i := by
  have hagrees := cellAgrees i.row.opcode
  have hmade := madeBy_cellAt i
  cases hc : cellAt i.row.opcode with
  | invalid => rw [hc] at hmade; exact hmade.elim
  | implied j base star =>
    rw [hc] at hagrees hmade
    obtain rfl : j = i := hmade
    obtain ⟨hencode, hrow⟩ := hagrees
    exact .implied (by rw [hc, hrow]) hencode
  | oneByte make base star =>
    rw [hc] at hagrees hmade
    obtain ⟨b, hb⟩ := hmade
    obtain ⟨-, hrow, hop, hmode⟩ := hagrees b
    rw [hb] at hrow hop hmode
    refine .oneByte make b hb (by rw [hc, hrow]) (fun c => (hagrees c).1) fun c => ?_
    obtain ⟨-, -, hcop, hcmode⟩ := hagrees c
    exact ⟨hcop.trans hop.symm, hcmode.trans hmode.symm⟩
  | twoBytes make base star =>
    rw [hc] at hagrees hmade
    obtain ⟨w, hw⟩ := hmade
    obtain ⟨-, hrow, hop, hmode⟩ := hagrees w
    rw [hw] at hrow hop hmode
    refine .twoBytes make w hw (by rw [hc, hrow]) (fun v => (hagrees v).1) fun v => ?_
    obtain ⟨-, -, hvop, hvmode⟩ := hagrees v
    exact ⟨hvop.trans hop.symm, hvmode.trans hmode.symm⟩

/-! ## Decoding and encoding -/

/-- The decoder reads back what the encoder writes, whatever bytes follow. -/
theorem decode_encode_append (i : Instr) (rest : List Byte) : decode (encode i ++ rest) = .instr i rest := by
  cases cellOf i with
  | implied cell encoding =>
    rw [encoding]
    exact decode_implied cell rest
  | oneByte make b made cell encoding same =>
    rw [← congrArg encode made, encoding, ← congrArg (Decoded.instr · rest) made]
    exact decode_oneByte cell b rest
  | twoBytes make w made cell encoding same =>
    rw [← congrArg encode made, encoding, ← congrArg (Decoded.instr · rest) made]
    exact decode_twoBytes cell w rest

/-- What the decoder reads as an instruction is the encoding of that instruction. -/
theorem eq_encode_append_of_decode {bytes : List Byte} {i : Instr} {rest : List Byte}
    (h : decode bytes = .instr i rest) : bytes = encode i ++ rest := by
  cases bytes with
  | nil => cases h
  | cons opcode operands =>
    have hagrees := cellAgrees opcode
    cases hc : cellAt opcode with
    | invalid => simp [decode, hc] at h
    | implied j base star =>
      rw [hc] at hagrees
      rw [decode_implied hc] at h
      cases h
      rw [hagrees.1]
      rfl
    | oneByte make base star =>
      rw [hc] at hagrees
      match operands with
      | [] => simp [decode, hc] at h
      | b :: tail =>
        rw [decode_oneByte hc] at h
        cases h
        rw [(hagrees b).1]
        rfl
    | twoBytes make base star =>
      rw [hc] at hagrees
      match operands with
      | [] | [_] => simp [decode, hc] at h
      | lo :: hi :: tail =>
        simp only [decode, hc] at h
        cases h
        rw [(hagrees (wordOf hi lo)).1, lowByte_wordOf, highByte_wordOf]
        rfl

/-- Settles O1: the round trip of each instruction, and the encoding of whatever the decoder reads. -/
theorem decodeEncodeAgree : Obligations.DecodeEncodeAgree := by
  refine fun bytes i rest => ⟨eq_encode_append_of_decode, ?_⟩
  rintro rfl
  exact decode_encode_append i rest

/-- Settles O3: each byte string is the encoding of its instruction. -/
theorem writtenOutWordsDecode : Obligations.WrittenOutWordsDecode := by
  have hdecode (bytes : List Byte) (i : Instr) (rest : List Byte) := (decodeEncodeAgree bytes i rest).mpr
  exact ⟨hdecode _ _ _ rfl, hdecode _ _ _ rfl, hdecode _ _ _ rfl, hdecode _ _ _ rfl, hdecode _ _ _ rfl,
    hdecode _ _ _ rfl, hdecode _ _ _ rfl⟩

/-! ## The dispatch table -/

/-- The descriptor of an instruction's row (R301). -/
def descriptorOf (i : Instr) : Descriptor := ⟨i.op, i.mode, i.row.base, i.row.pageCross⟩

theorem descr_row_opcode (i : Instr) : descr i.row.opcode = some (descriptorOf i) := by
  cases cellOf i with
  | implied cell encoding => rw [descr, cell]; rfl
  | oneByte make b made cell encoding same =>
    obtain ⟨hop, hmode⟩ := same 0
    rw [descr, cell, Cell.descriptor, hop, hmode]
    rfl
  | twoBytes make w made cell encoding same =>
    obtain ⟨hop, hmode⟩ := same 0
    rw [descr, cell, Cell.descriptor, hop, hmode]
    rfl

theorem exists_instr_of_descr {opcode : Byte} {d : Descriptor} (h : descr opcode = some d) :
    ∃ i : Instr, i.row.opcode = opcode ∧ d = descriptorOf i := by
  have hagrees := cellAgrees opcode
  rw [descr] at h
  cases hc : cellAt opcode with
  | invalid => simp [hc, Cell.descriptor] at h
  | implied j base star =>
    rw [hc] at hagrees h
    cases h
    exact ⟨j, by rw [hagrees.2], by rw [descriptorOf, hagrees.2]⟩
  | oneByte make base star =>
    rw [hc] at hagrees h
    obtain ⟨-, hrow, -⟩ := hagrees 0
    cases h
    exact ⟨make 0, by rw [hrow], by rw [descriptorOf, hrow]⟩
  | twoBytes make base star =>
    rw [hc] at hagrees h
    obtain ⟨-, hrow, -⟩ := hagrees 0
    cases h
    exact ⟨make 0, by rw [hrow], by rw [descriptorOf, hrow]⟩

/-- The form of a read instruction. -/
def isRead : Form → Bool
  | .read _ _ => true
  | _ => false

theorem isRead_iff {f : Form} : isRead f = true ↔ ∃ o src, f = .read o src := by
  cases f <;> simp [isRead]

/-- The `*` of R300 stands where R441 charges a crossed page. -/
theorem row_pageCross (i : Instr) :
    i.row.pageCross = (isRead i.form && [Mode.absoluteX, .absoluteY, .indirectIndexedY].contains i.mode) := by
  cases i <;> rfl

/-- Settles O5: the descriptor of each row, the row of each descriptor, and the flag. -/
theorem dispatchTableHasOneRowPerInstruction : Obligations.DispatchTableHasOneRowPerInstruction := by
  refine ⟨descr_row_opcode, fun _ _ => exists_instr_of_descr, fun i => ?_⟩
  rw [row_pageCross, Bool.and_eq_true, isRead_iff, List.contains_iff_mem]

/-! ## Lengths -/

theorem length_encode (i : Instr) : (encode i).length = i.length := by
  rw [encode, List.length_cons, length_formBytes, Instr.length, Instr.mode, Nat.add_comm]

theorem one_add_operandBytes (m : Mode) :
    1 + m.operandBytes =
      if m = .implied then 1 else if m ∈ [Mode.absolute, .absoluteX, .absoluteY, .indirect] then 3 else 2 := by
  cases m <;> rfl

/-- The opcode byte fixes the operation and the mode, by the dispatch table. -/
theorem op_mode_of_row_opcode_eq {i j : Instr} (h : i.row.opcode = j.row.opcode) : i.op = j.op ∧ i.mode = j.mode := by
  have hd : descriptorOf i = descriptorOf j := by
    rw [← Option.some_inj, ← descr_row_opcode, ← descr_row_opcode, h]
  exact ⟨congrArg Descriptor.op hd, congrArg Descriptor.mode hd⟩

/-- Settles O4: a mode has as many operand bytes as the encoder writes, and the opcode fixes the mode. -/
theorem opcodeAloneFixesTheLength : Obligations.OpcodeAloneFixesTheLength := by
  refine ⟨fun i => ⟨length_encode i, one_add_operandBytes i.mode⟩, fun i j h => ?_⟩
  rw [Instr.length, Instr.length, (op_mode_of_row_opcode_eq h).2]

/-! ## Operation and mode fix the opcode byte -/

/-- The opcode byte of a read operation, but for its mode's part. -/
def readBase : ReadOp → Byte
  | .ora => 0x01
  | .and => 0x21
  | .eor => 0x41
  | .adc => 0x61
  | .lda => 0xA1
  | .cmp => 0xC1
  | .sbc => 0xE1
  | .ldx => 0xA2
  | .bit => 0x20
  | .ldy => 0xA0
  | .cpy => 0xC0
  | .cpx => 0xE0

/-- The opcode byte of a write operation, but for its mode's part. -/
def storeBase : StoreOp → Byte
  | .sta => 0x81
  | .stx => 0x82
  | .sty => 0x80

/-- The opcode byte of a read-modify-write operation, but for its mode's part. -/
def modifyBase : ModifyOp → Byte
  | .asl => 0x02
  | .rol => 0x22
  | .lsr => 0x42
  | .ror => 0x62
  | .dec => 0xC2
  | .inc => 0xE2

/-- The opcode byte of a branch. -/
def branchOpcode : BranchOp → Byte
  | .bpl => 0x10
  | .bmi => 0x30
  | .bvc => 0x50
  | .bvs => 0x70
  | .bcc => 0x90
  | .bcs => 0xB0
  | .bne => 0xD0
  | .beq => 0xF0

/-- The opcode byte of an operation whose only mode is Implied. -/
def impliedOpcode : ImpliedOp → Byte
  | .brk => 0x00
  | .php => 0x08
  | .clc => 0x18
  | .plp => 0x28
  | .sec => 0x38
  | .rti => 0x40
  | .pha => 0x48
  | .cli => 0x58
  | .rts => 0x60
  | .pla => 0x68
  | .sei => 0x78
  | .dey => 0x88
  | .txa => 0x8A
  | .tya => 0x98
  | .txs => 0x9A
  | .tay => 0xA8
  | .tax => 0xAA
  | .clv => 0xB8
  | .tsx => 0xBA
  | .iny => 0xC8
  | .dex => 0xCA
  | .cld => 0xD8
  | .inx => 0xE8
  | .nop => 0xEA
  | .sed => 0xF8

/-- The mode's part of the opcode bytes of an operation. An immediate operand has two: 8 in the operations that also
have an indexed indirect mode, those with an odd base, and 0 in the others. -/
def modePart (base : Byte) : Mode → Byte
  | .zeroPage => 0x04
  | .implied => 0x08
  | .absolute => 0x0C
  | .indirectIndexedY => 0x10
  | .zeroPageX | .zeroPageY => 0x14
  | .absoluteX => 0x1C
  | .absoluteY => if base.getLsbD 0 then 0x18 else 0x1C
  | .immediate => if base.getLsbD 0 then 0x08 else 0x00
  | .indexedIndirectX | .relative | .indirect => 0x00

/-- The opcode byte that R300 gives an operation in a mode. -/
def opcodeOf : Op → Mode → Byte
  | .read o, m => readBase o + modePart (readBase o) m
  | .store o, m => storeBase o + modePart (storeBase o) m
  | .modify o, m => modifyBase o + modePart (modifyBase o) m
  | .branch o, _ => branchOpcode o
  | .jmp, m => if m = .absolute then 0x4C else 0x6C
  | .jsr, _ => 0x20
  | .implied o, _ => impliedOpcode o

theorem row_opcode_eq_opcodeOf (i : Instr) : i.row.opcode = opcodeOf i.op i.mode := by
  cases i <;> rfl

/-- An operation's opcode in each of its modes has the descriptor of that operation in that mode. -/
theorem descr_opcodeOf {o : Op} {m : Mode} (h : m ∈ o.modes) :
    (descr (opcodeOf o m)).map (fun d => (d.op, d.mode)) = some (o, m) := by
  revert m
  cases o with
  | read o => cases o <;> decide
  | store o => cases o <;> decide
  | modify o => cases o <;> decide
  | branch o => cases o <;> decide
  | implied o => cases o <;> decide
  | jmp => decide
  | jsr => decide

/-! ## Forms -/

theorem encode_eq_of_form_eq {i j : Instr} (h : i.form = j.form) : encode i = encode j := by
  rw [encode, encode, row_opcode_eq_opcodeOf, row_opcode_eq_opcodeOf, Instr.op, Instr.op, Instr.mode, Instr.mode, h]

theorem encode_injective : Function.Injective encode := by
  intro i j h
  have hi := decode_encode_append i []
  rw [h, decode_encode_append] at hi
  cases hi
  rfl

theorem eq_of_word_bytes_eq {v w : Word} (h : [lowByte v, highByte v] = [lowByte w, highByte w]) : v = w := by
  obtain ⟨hlow, hhigh⟩ : lowByte v = lowByte w ∧ highByte v = highByte w := by simpa using h
  rw [← wordOf_highByte_lowByte v, hlow, hhigh, wordOf_highByte_lowByte]

/-- Mode and bytes fix an operand that resolves to an address. -/
theorem memOperand_ext {m n : MemOperand} (hmode : m.mode = n.mode) (hbytes : m.bytes = n.bytes) : m = n := by
  cases m <;> cases n <;> cases hmode
  case zeroPage | zeroPageX | zeroPageY | indexedIndirectX | indirectIndexedY => cases hbytes; rfl
  case absolute | absoluteX | absoluteY | indirect => rw [eq_of_word_bytes_eq hbytes]

theorem readOperand_ext {o : ReadOp} {src src' : ReadOperand} (hmode : (Form.read o src).mode = (Form.read o src').mode)
    (hbytes : (Form.read o src).bytes = (Form.read o src').bytes) : src = src' := by
  cases src with
  | immediate b =>
    cases src' with
    | immediate b' => cases hbytes; rfl
    | memory m => cases m <;> cases hmode
  | memory m =>
    cases src' with
    | immediate b => cases m <;> cases hmode
    | memory m' => rw [memOperand_ext hmode hbytes]

theorem modifyOperand_ext {o : ModifyOp} {target target' : ModifyOperand}
    (hmode : (Form.modify o target).mode = (Form.modify o target').mode)
    (hbytes : (Form.modify o target).bytes = (Form.modify o target').bytes) : target = target' := by
  cases target with
  | accumulator =>
    cases target' with
    | accumulator => rfl
    | memory m => cases m <;> cases hmode
  | memory m =>
    cases target' with
    | accumulator => cases m <;> cases hmode
    | memory m' => rw [memOperand_ext hmode hbytes]

/-- Operation, mode and operand bytes fix a form. -/
theorem form_ext {f g : Form} (hop : f.op = g.op) (hmode : f.mode = g.mode) (hbytes : f.bytes = g.bytes) : f = g := by
  cases f <;> cases g <;> cases hop
  case read => rw [readOperand_ext hmode hbytes]
  case store => rw [memOperand_ext hmode hbytes]
  case modify => rw [modifyOperand_ext hmode hbytes]
  case branch => cases hbytes; rfl
  case jump => rw [memOperand_ext hmode hbytes]
  case call => rw [eq_of_word_bytes_eq hbytes]
  case implied => rfl

/-- As many operand bytes as an instruction's mode has make an instruction of the same row. -/
theorem exists_instr_with_bytes (i : Instr) {bytes : List Byte} (h : bytes.length = i.form.bytes.length) :
    ∃ j : Instr, j.op = i.op ∧ j.mode = i.mode ∧ j.form.bytes = bytes := by
  cases cellOf i with
  | implied cell encoding =>
    obtain ⟨-, hbytes⟩ := List.cons.inj encoding
    rw [hbytes] at h
    exact ⟨i, rfl, rfl, hbytes.trans (List.length_eq_zero_iff.mp h).symm⟩
  | oneByte make b made cell encoding same =>
    rw [← made, (List.cons.inj (encoding b)).2] at h
    obtain ⟨c, rfl⟩ := List.length_eq_one_iff.mp h
    exact ⟨make c, (same c).1, (same c).2, (List.cons.inj (encoding c)).2⟩
  | twoBytes make w made cell encoding same =>
    rw [← made, (List.cons.inj (encoding w)).2] at h
    obtain ⟨lo, hi, rfl⟩ := List.length_eq_two.mp h
    obtain ⟨hop, hmode⟩ := same (wordOf hi lo)
    refine ⟨make (wordOf hi lo), hop, hmode, ?_⟩
    rw [(List.cons.inj (encoding (wordOf hi lo))).2, lowByte_wordOf, highByte_wordOf]

theorem wellFormed_form (i : Instr) : i.form.wellFormed = true := by
  cases i <;> rfl

theorem exists_instr_of_wellFormed {f : Form} (h : f.wellFormed = true) : ∃ i : Instr, i.form = f := by
  have hd := descr_opcodeOf (List.contains_iff_mem.mp h)
  obtain ⟨d, hd, hom⟩ := Option.map_eq_some_iff.mp hd
  obtain ⟨i, -, rfl⟩ := exists_instr_of_descr hd
  obtain ⟨hop, hmode⟩ : i.op = f.op ∧ i.mode = f.mode := by simpa [descriptorOf] using hom
  obtain ⟨j, hjop, hjmode, hjbytes⟩ := exists_instr_with_bytes i (bytes := f.bytes)
    (by rw [length_formBytes, length_formBytes]; exact congrArg _ hmode.symm)
  exact ⟨j, form_ext (hjop.trans hop) (hjmode.trans hmode) hjbytes⟩

/-- Settles O6: the table has a row for each well-formed pair, and a form fixes its encoding. -/
theorem formsOfInstructionsAreTheWellFormedOnes : Obligations.FormsOfInstructionsAreTheWellFormedOnes := by
  refine ⟨fun f => ⟨exists_instr_of_wellFormed, ?_⟩, fun i j h => encode_injective (encode_eq_of_form_eq h)⟩
  rintro ⟨i, rfl⟩
  exact wellFormed_form i

/-! ## Invalid opcodes -/

theorem decode_eq_invalid_iff {opcode : Byte} {rest : List Byte} :
    decode (opcode :: rest) = .invalid opcode ↔ descr opcode = none := by
  rw [descr]
  cases hc : cellAt opcode with
  | invalid => simp [decode, hc, Cell.descriptor]
  | implied i base star => simp [decode_implied hc, Cell.descriptor]
  | oneByte make base star => cases rest <;> simp [decode, hc, Cell.descriptor]
  | twoBytes make base star =>
    match rest with
    | [] | [_] | _ :: _ :: _ => simp [decode, hc, Cell.descriptor]

/-- The opcode bytes without an entry in the dispatch table, in rising order. -/
def invalidOpcodes : List Byte := ((List.range 256).map (BitVec.ofNat 8)).filter fun opcode => (descr opcode).isNone

theorem mem_invalidOpcodes_iff {opcode : Byte} : opcode ∈ invalidOpcodes ↔ descr opcode = none := by
  have hbyte : opcode ∈ (List.range 256).map (BitVec.ofNat 8) :=
    List.mem_map.mpr ⟨opcode.toNat, List.mem_range.mpr opcode.isLt, by rw [BitVec.ofNat_toNat, BitVec.setWidth_eq]⟩
  rw [invalidOpcodes, List.mem_filter, Option.isNone_iff_eq_none, and_iff_right hbyte]

/-- Settles O2: the decoder rejects where the dispatch table has no entry, and the list of R307 is that of those
bytes. -/
theorem invalidOpcodesAreTheListed105 : Obligations.InvalidOpcodesAreTheListed105 := by
  unfold Obligations.InvalidOpcodesAreTheListed105
  intro listed
  have hlisted : listed = invalidOpcodes := by decide
  refine ⟨rfl, fun opcode rest => ?_⟩
  rw [hlisted, decode_eq_invalid_iff, mem_invalidOpcodes_iff]

/-! ## Branch offsets (R309, R700) -/

theorem lowByte_sext16 (b : Byte) : lowByte (sext16 b) = b := by
  ext k hk
  have hk16 : k < 16 := by omega
  simp [lowByte, sext16, BitVec.getElem_signExtend, hk, hk16]

theorem branchOffset_eq_some_iff {addr target : Word} {rel : Byte} :
    branchOffset addr target = some rel ↔ sext16 rel = target - (addr + 2) := by
  rw [branchOffset]
  refine ⟨fun h => ?_, fun h => ?_⟩
  · split at h
    next hoff => cases h; exact hoff
    next => cases h
  · rw [← h, lowByte_sext16]
    exact if_pos rfl

theorem toInt_sext16 (b : Byte) : (sext16 b).toInt = b.toInt :=
  BitVec.toInt_signExtend_of_le (by decide)

theorem branchTarget_eq_iff {addr target : Word} {rel : Byte} :
    branchTarget addr rel = target ↔ sext16 rel = target - (addr + 2) := by
  rw [branchTarget, eq_sub_iff_add_eq']

theorem exec_branch_taken_pc {i : Instr} {o : BranchOp} {rel : Byte} {s : State} (h : i.form = .branch o rel)
    (hc : branchCondition o s.p = true) : ∃ t, exec i s = .next t ∧ t.pc = branchTarget s.pc rel := by
  have hlen : i.length = 2 := by rw [Instr.length, Instr.mode, h]; rfl
  rw [exec_branch s h, runBranch_taken hc, hlen]
  exact ⟨_, rfl, rfl⟩

/-- Settles O59: the offset and the target are the two sides of one sum. -/
theorem branchOffsetsAreTargetMinusNext : Obligations.BranchOffsetsAreTargetMinusNext := by
  refine ⟨fun addr target rel => ⟨?_, ?_⟩, fun i o rel s => exec_branch_taken_pc⟩
  · rw [branchOffset_eq_some_iff, ← BitVec.toInt_inj, toInt_sext16]
  · rw [branchOffset_eq_some_iff, branchTarget_eq_iff]

end Sys2Proof.Machine
end

section
/-! # Proofs: the core on any BUS, its cycle total, and the machine's step -/

namespace Sys2Proof.Machine

/-! ## The machine's step is the core's on plain RAM (R400, R200) -/

theorem step_eq_next_stepOn {s : State} (hf : s.fault = none) : step s = .next ⟨(stepOn Bus.ram s.toCpu).2⟩ := by
  simp only [step, stepOn, hf]
  cases s.toCpu.interruptPending with
  | some src => rfl
  | none =>
    cases s.toCpu.fetch Bus.ram with
    | invalid opcode c => rfl
    | instr i c => exact exec_eq_executeOn i ⟨c⟩

theorem stepOn_of_fault {σ : Type} (B : Bus σ) {c : Cpu σ} {opcode : Byte} {pc : Word}
    (h : c.fault = some (opcode, pc)) : stepOn B c = (.fault opcode pc, c) := by
  simp only [stepOn, h]

/-- Settles O12: the same cases in both, every instruction being the run of its form on RAM. -/
theorem stepIsStepOfTheCoreOnRam : Obligations.StepIsStepOfTheCoreOnRam :=
  fun _ => ⟨step_eq_next_stepOn, fun _ _ h => ⟨step_of_fault h, stepOn_of_fault Bus.ram h⟩⟩

/-! ## The instruction that the bytes at PC decode to (R400, R404) -/

theorem fetch_eq_instr_of_decode {s : State} {i : Instr} {rest : List Byte} (h : decode s.window = .instr i rest) :
    s.toCpu.fetch Bus.ram = .instr i s.toCpu := by
  have hbytes : decode [Memory.read s.mem s.pc, Memory.read s.mem (s.pc + 1), Memory.read s.mem (s.pc + 2)] =
    .instr i rest := h
  rw [Cpu.fetch_ram, hbytes]

/-- Settles O8: with no interrupt to take, the step is the fetched instruction. -/
theorem stepRunsTheDecodedInstruction : Obligations.StepRunsTheDecodedInstruction :=
  fun _ _ _ hf hq h => step_of_instr hf ((Cpu.interruptPending_eq_none _).mpr hq) (fetch_eq_instr_of_decode h)

/-! ## No operation reads the cycle total (R442) -/

/-- A core with its cycle total replaced. -/
def Cpu.withCycles {σ : Type} (n : Nat) (c : Cpu σ) : Cpu σ := { c with cycles := n }

section
variable {σ : Type} (B : Bus σ) (n : Nat)

theorem read_withCycles (c : Cpu σ) (addr : Word) :
    (c.withCycles n).read B addr = ((c.read B addr).1, (c.read B addr).2.withCycles n) := rfl

theorem locate_withCycles (c : Cpu σ) (m : MemOperand) :
    locate B (c.withCycles n) m = ⟨(locate B c m).ea, (locate B c m).cross, (locate B c m).cpu.withCycles n⟩ := by
  cases m <;> rfl

theorem readExecutor_withCycles (o : ReadOp) (v : Byte) (c : Cpu σ) :
    readExecutor o v (c.withCycles n) = (readExecutor o v c).withCycles n := by
  cases o <;> rfl

theorem storedRegister_withCycles (o : StoreOp) (c : Cpu σ) :
    storedRegister o (c.withCycles n) = storedRegister o c := by
  cases o <;> rfl

theorem impliedExecutor_withCycles (o : ImpliedOp) (c : Cpu σ) :
    impliedExecutor B o (c.withCycles n) = (impliedExecutor B o c).withCycles n := by
  cases o <;> rfl

theorem runBranch_withCycles (i : Instr) (cond : Flags → Bool) (rel : Byte) (c : Cpu σ) :
    runBranch i cond rel (c.withCycles n) =
      ⟨(runBranch i cond rel c).cpu.withCycles n, (runBranch i cond rel c).cost⟩ := by
  cases h : cond c.p with
  | true => rw [runBranch_taken h, runBranch_taken (c := c.withCycles n) h]; rfl
  | false => rw [runBranch_untaken h, runBranch_untaken (c := c.withCycles n) h]; rfl

/-- Running an instruction, before its cycles are charged, carries the total along and does not depend on it. -/
theorem executeOn_withCycles (i : Instr) (c : Cpu σ) :
    executeOn B i (c.withCycles n) = ⟨(executeOn B i c).cpu.withCycles n, (executeOn B i c).cost⟩ := by
  have hadvance : (c.withCycles n).advance i.length = (c.advance i.length).withCycles n := rfl
  unfold executeOn
  cases i.form with
  | read o src =>
    cases src with
    | immediate b => simp only [runRead, hadvance, readExecutor_withCycles]
    | memory m =>
      simp only [runRead, hadvance, locate_withCycles, read_withCycles, readExecutor_withCycles]
  | store o dst =>
    simp only [runStore, hadvance, locate_withCycles, storedRegister_withCycles]
    rfl
  | modify o target =>
    cases target with
    | accumulator => rfl
    | memory m => simp only [runModify, hadvance, locate_withCycles]; rfl
  | branch o rel => exact runBranch_withCycles n i _ rel c
  | jump m => simp only [runJump, hadvance, locate_withCycles]; rfl
  | call target => rfl
  | implied o => simp only [runImplied, hadvance, impliedExecutor_withCycles]

/-- What a fetch gives, with the cycle total replaced. -/
def Fetched.withCycles : Fetched σ → Fetched σ
  | .instr i c => .instr i (c.withCycles n)
  | .invalid opcode c => .invalid opcode (c.withCycles n)

theorem fetch_withCycles (c : Cpu σ) : (c.withCycles n).fetch B = (c.fetch B).withCycles n := by
  have hread : ((c.withCycles n).read B (c.withCycles n).pc).1 = (c.read B c.pc).1 := rfl
  simp only [Cpu.fetch, hread]
  cases cellAt (c.read B c.pc).1 <;> rfl

theorem interruptEntry_withCycles (c : Cpu σ) (src : Interrupt) :
    (c.withCycles n).interruptEntry B src = (c.interruptEntry B src).withCycles n := by
  cases src <;> rfl

/-- A step from a state with another cycle total returns the same, and leaves the same state but for the total, which
is the other one and the cycles that the step returns. -/
theorem stepOn_withCycles (c : Cpu σ) :
    stepOn B (c.withCycles n) =
      ((stepOn B c).1, (stepOn B c).2.withCycles (n + (stepOn B c).1.consumed)) := by
  have hfault : (c.withCycles n).fault = c.fault := rfl
  have hpending : (c.withCycles n).interruptPending = c.interruptPending := rfl
  simp only [stepOn, hfault, hpending, fetch_withCycles]
  cases c.fault with
  | some latch => rfl
  | none =>
    cases c.interruptPending with
    | some src => simp only [Cpu.takeInterrupt, interruptEntry_withCycles]; rfl
    | none =>
      cases c.fetch B with
      | invalid opcode c1 => rfl
      | instr i c1 => simp only [Fetched.withCycles, executeOn_withCycles]; rfl

/-- The total grows by what the step returns: replace it by itself. -/
theorem stepOn_cycles (c : Cpu σ) : (stepOn B c).2.cycles = c.cycles + (stepOn B c).1.consumed :=
  congrArg (fun r => r.2.cycles) (stepOn_withCycles B c.cycles c)

end

/-- The second state is the first with `n` more cycles on its total. -/
def AheadBy (n : Nat) (s t : State) : Prop := t = ⟨s.toCpu.withCycles (s.cycles + n)⟩

/-- The step lemma of the pair. -/
theorem step_aheadBy (n : Nat) (s s' : State) (hs : AheadBy n s s') : Follows (AheadBy n) (step s) (step s') := by
  subst hs
  cases hf : s.fault with
  | some latch =>
    obtain ⟨opcode, pc⟩ := latch
    rw [step_of_fault hf, step_of_fault (s := ⟨s.toCpu.withCycles (s.cycles + n)⟩) hf]
    exact .fault _ _
  | none =>
    rw [step_eq_next_stepOn hf, step_eq_next_stepOn (s := ⟨s.toCpu.withCycles (s.cycles + n)⟩) hf]
    refine .next (congrArg State.mk ?_)
    simp only [stepOn_withCycles, stepOn_cycles, Nat.add_right_comm]

/-- Settles O18: the step lemma of the pair, carried over the run. -/
theorem noRunObservesTheCycleTotal : Obligations.NoRunObservesTheCycleTotal := by
  intro k s n
  obtain ⟨hnext, hfault⟩ := run_follows (step_aheadBy n) k
    (s := s) (s' := { s with cycles := s.cycles + n }) rfl
  refine ⟨fun t h => ?_, hfault⟩
  obtain ⟨_, ht, rfl⟩ := hnext t h
  exact ht

end Sys2Proof.Machine
end

section
/-! # Proofs: where the addressing modes resolve to -/

namespace Sys2Proof.Machine

theorem toNat_zext16_add (b index : Byte) : (zext16 (b + index)).toNat = (b.toNat + index.toNat) % 256 := by
  rw [toNat_zext16, BitVec.toNat_add]

theorem toNat_add_zext16 (w : Word) (index : Byte) : (w + zext16 index).toNat = (w.toNat + index.toNat) % 65536 := by
  rw [BitVec.toNat_add, toNat_zext16]

/-- Pages are compared as the quotients by 256 (R8, R13). -/
theorem pagesDiffer_eq_decide (u v : Word) : pagesDiffer u v = decide (u.toNat / 256 ≠ v.toNat / 256) := by
  simp only [pagesDiffer, page, bne, beq_eq_decide, ← toNat_highByte, BitVec.toNat_inj, ne_eq, decide_not]

theorem indexed_cross {σ : Type} (base : Word) (index : Byte) (c : Cpu σ) :
    (Located.indexed base index c).cross =
      decide (base.toNat / 256 ≠ (base.toNat + index.toNat) % 65536 / 256) := by
  rw [Located.indexed, pagesDiffer_eq_decide, toNat_add_zext16]

/-! ## The modes without a pointer (R414 to R419) -/

/-- Without a pointer to read, resolving leaves even the interface as it was. -/
theorem locate_cpu_of_no_pointer {σ : Type} (B : Bus σ) (c : Cpu σ) {m : MemOperand}
    (h : m.mode ∈ [Mode.zeroPage, .zeroPageX, .zeroPageY, .absolute, .absoluteX, .absoluteY]) :
    (locate B c m).cpu = c := by
  cases m with
  | indirect | indexedIndirectX | indirectIndexedY => simp [MemOperand.mode] at h
  | _ => rfl

theorem eq_of_mode_zeroPageY {i : Instr} (h : i.mode = .zeroPageY) : ∃ z : Byte, i = .ldxZpY z ∨ i = .stxZpY z := by
  cases i with
  | ldxZpY z => exact ⟨z, .inl rfl⟩
  | stxZpY z => exact ⟨z, .inr rfl⟩
  | _ => cases h

/-- Settles O49: the sums of the modes, read as numbers. -/
theorem directAndIndexedModesResolve : Obligations.DirectAndIndexedModesResolve := by
  refine ⟨fun s z a => ⟨⟨toNat_zext16 z, rfl⟩, ⟨toNat_zext16_add z s.x, rfl⟩, ⟨toNat_zext16_add z s.y, rfl⟩,
    ⟨rfl, rfl⟩, ⟨toNat_add_zext16 a s.x, indexed_cross a s.x s.toCpu⟩,
    ⟨toNat_add_zext16 a s.y, indexed_cross a s.y s.toCpu⟩⟩,
    fun σ B c m => locate_cpu_of_no_pointer B c, fun i => eq_of_mode_zeroPageY⟩

/-! ## The modes with a pointer (R420 to R422, R205) -/

/-- The address in page zero of a byte, from any number it is the residue of. -/
theorem zext16_eq_ofNat {b : Byte} {n : Nat} (h : b.toNat = n % 256) : zext16 b = BitVec.ofNat 16 (n % 256) := by
  rw [← h, ← toNat_zext16, BitVec.ofNat_toNat, BitVec.setWidth_eq]

/-- A word whose bytes are read in page zero, at two addresses given as numbers. -/
theorem toNat_zpRead16 (s : State) {z : Byte} {n : Nat} (h : z.toNat = n % 256) :
    (s.toCpu.zpRead16 Bus.ram z).1.toNat =
      (s.peek (BitVec.ofNat 16 (n % 256))).toNat + 256 * (s.peek (BitVec.ofNat 16 ((n + 1) % 256))).toNat := by
  have hnext : (z + 1).toNat = (n + 1) % 256 := by
    rw [BitVec.toNat_add, h]
    exact Nat.mod_add_mod n 256 1
  rw [Cpu.zpRead16_ram, toNat_wordOf, zext16_eq_ofNat h, zext16_eq_ofNat hnext, Nat.add_comm, Nat.mul_comm]
  rfl

/-- The next address in the page of a pointer. -/
theorem wordOf_highByte_lowByte_succ (p : Word) :
    wordOf (highByte p) (lowByte p + 1) = BitVec.ofNat 16 (p.toNat / 256 * 256 + (p.toNat + 1) % 256) := by
  apply BitVec.eq_of_toNat_eq
  have hlow : (lowByte p + 1).toNat = (p.toNat % 256 + 1) % 256 := by
    rw [BitVec.toNat_add, toNat_lowByte]
    rfl
  have := p.isLt
  rw [toNat_wordOf, toNat_highByte, hlow, BitVec.toNat_ofNat]
  omega

theorem toNat_ea_indirect (s : State) (p : Word) :
    (s.ea (.indirect p)).toNat =
      (s.peek p).toNat + 256 * (s.peek (BitVec.ofNat 16 (p.toNat / 256 * 256 + (p.toNat + 1) % 256))).toNat := by
  rw [← wordOf_highByte_lowByte_succ, ← pointerHigh_eq_wordOf, Nat.add_comm, Nat.mul_comm]
  exact toNat_wordOf _ _

/-- Settles O50: the two addresses of each pointer, read as numbers. -/
theorem pointerModesResolveThroughMemory : Obligations.PointerModesResolveThroughMemory := by
  intro s z p zp base
  have hbase : (s.toCpu.zpRead16 Bus.ram z).1.toNat = base :=
    toNat_zpRead16 s (Nat.mod_eq_of_lt z.isLt).symm
  refine ⟨⟨toNat_ea_indirect s p, rfl⟩, ⟨toNat_zpRead16 s (BitVec.toNat_add z s.x), rfl⟩, ?_, ?_⟩
  · rw [← hbase]
    exact toNat_add_zext16 _ s.y
  · rw [← hbase]
    exact indexed_cross _ s.y _

end Sys2Proof.Machine
end

section
/-! # Proofs: the bytes that a fetch reads -/

namespace Sys2Proof.Machine

/-- The record of reading bytes at consecutive addresses (R404). -/
def readsFrom (pc : Word) (bytes : List Byte) : List Access :=
  (List.range bytes.length).zipWith (fun k v => .read (pc + BitVec.ofNat 16 k) v) bytes

theorem readsFrom_one (pc : Word) (opcode : Byte) : readsFrom pc [opcode] = [.read pc opcode] := by
  simp [readsFrom]

theorem readsFrom_two (pc : Word) (opcode b : Byte) :
    readsFrom pc [opcode, b] = [.read pc opcode, .read (pc + 1) b] := by
  simp [readsFrom, List.range_succ]

theorem readsFrom_three (pc : Word) (opcode lo hi : Byte) :
    readsFrom pc [opcode, lo, hi] = [.read pc opcode, .read (pc + 1) lo, .read (pc + 2) hi] := by
  simp [readsFrom, List.range_succ]

theorem map_shape_readsFrom (pc : Word) (bytes : List Byte) :
    (readsFrom pc bytes).map Access.shape =
      (List.range bytes.length).map fun k => (false, pc + BitVec.ofNat 16 k) := by
  apply List.ext_getElem
  · simp [readsFrom]
  · intro k _ _
    simp [readsFrom]

/-- What a fetch on a recording BUS gives: an instruction, all of whose bytes it has read, or an invalid opcode, the one
byte read. Nothing but the interface has changed. -/
inductive FetchedWith {σ : Type} (c : Cpu (σ × List Access)) : Fetched (σ × List Access) → Prop where
  | instr (i : Instr) (c1 : Cpu (σ × List Access)) (record : c1.mem.2 = c.mem.2 ++ readsFrom c.pc (encode i))
      (rest : c1 = { c with mem := c1.mem }) : FetchedWith c (.instr i c1)
  | invalid (opcode : Byte) (c1 : Cpu (σ × List Access)) (record : c1.mem.2 = c.mem.2 ++ [.read c.pc opcode])
      (undefined : descr opcode = none) (rest : c1 = { c with mem := c1.mem }) : FetchedWith c (.invalid opcode c1)

/-- By the kind of the opcode's cell, which agrees with the encoding. -/
theorem fetchedWith_fetch {σ : Type} (B : Bus σ) (c : Cpu (σ × List Access)) :
    FetchedWith c (c.fetch B.recording) := by
  have hagrees := cellAgrees (c.read B.recording c.pc).1
  cases hc : cellAt (c.read B.recording c.pc).1 with
  | invalid =>
    simp only [Cpu.fetch, hc]
    exact .invalid _ _ rfl (by rw [descr, hc, Cell.descriptor]) rfl
  | implied i base star =>
    rw [hc] at hagrees
    simp only [Cpu.fetch, hc]
    refine .instr _ _ ?_ rfl
    rw [hagrees.1, readsFrom_one]
    rfl
  | oneByte make base star =>
    rw [hc] at hagrees
    simp only [Cpu.fetch, hc]
    refine .instr _ _ ?_ rfl
    rw [(hagrees _).1, readsFrom_two]
    exact List.append_assoc _ _ _
  | twoBytes make base star =>
    rw [hc] at hagrees
    simp only [Cpu.fetch, hc]
    refine .instr _ _ ?_ rfl
    rw [(hagrees _).1, lowByte_wordOf, highByte_wordOf, readsFrom_three]
    exact (List.append_assoc _ _ _).trans (List.append_assoc _ _ _)

/-- Settles O54: the bytes read are the encoding, which is as long as the instruction. -/
theorem fetchReadsTheInstructionBytesOnce : Obligations.FetchReadsTheInstructionBytesOnce := by
  intro σ B c hempty
  have h := fetchedWith_fetch B c
  generalize c.fetch B.recording = fetched at h
  cases h with
  | instr i c1 record rest =>
    rw [hempty, List.nil_append] at record
    refine ⟨?_, ?_, rest⟩
    · rw [record, map_shape_readsFrom, length_encode]
    · rw [record, readsFrom, length_encode]
  | invalid opcode c1 record undefined rest =>
    rw [hempty, List.nil_append] at record
    exact ⟨record, undefined, rest⟩

end Sys2Proof.Machine
end

section
/-! # Proofs: the drive modes, runs of steps on any BUS that go on while a condition holds -/

namespace Sys2Proof.Machine

variable {σ : Type} (B : Bus σ)

/-! ## Cycles and faults of a step (R400, R440, R1101) -/

/-- An instruction costs 2 to 7 cycles on any BUS. -/
theorem executeOn_cost_bounds (i : Instr) (c : Cpu σ) : 2 ≤ (executeOn B i c).cost ∧ (executeOn B i c).cost ≤ 7 := by
  unfold executeOn
  cases hf : i.form with
  | read o src => cases src <;> exact cost_bounds i _
  | store o dst => exact cost_bounds i _
  | modify o target => cases target <;> exact cost_bounds i _
  | branch o rel =>
    cases hc : branchCondition o c.p with
    | true =>
      simp only [runBranch_taken hc]
      exact cost_bounds_of_branch hf (by split <;> omega)
    | false =>
      simp only [runBranch_untaken hc]
      exact cost_bounds i _
  | jump m => exact cost_bounds i _
  | call target => exact cost_bounds i _
  | implied o => exact cost_bounds i _

/-- What `step()` can return, and what it latches. -/
theorem stepOn_result_cases (c : Cpu σ) :
    (∃ m, (stepOn B c).1 = .cycles m ∧ 2 ≤ m ∧ m ≤ 7) ∨
      ∃ opcode pc, (stepOn B c).1 = .fault opcode pc ∧ (stepOn B c).2.fault = some (opcode, pc) := by
  unfold stepOn
  cases hf : c.fault with
  | some latch => exact .inr ⟨latch.1, latch.2, rfl, hf⟩
  | none =>
    cases c.interruptPending with
    | some src => exact .inl ⟨7, rfl, by decide, by decide⟩
    | none =>
      cases c.fetch B with
      | invalid opcode c1 => exact .inr ⟨opcode, c1.pc, rfl, rfl⟩
      | instr i c1 => exact .inl ⟨_, rfl, executeOn_cost_bounds B i c1⟩

variable {B}

theorem fault_latched_of_stepOn {c : Cpu σ} {opcode : Byte} {pc : Word} (h : (stepOn B c).1 = .fault opcode pc) :
    (stepOn B c).2.fault = some (opcode, pc) := by
  obtain ⟨n, hn, -⟩ | ⟨opcode', pc', hfault, hlatch⟩ := stepOn_result_cases B c
  · cases h.symm.trans hn
  · cases h.symm.trans hfault
    exact hlatch

/-- The total grows by the cycles that the steps return (R402). -/
theorem stepsOn_cycles (n : Nat) (c : Cpu σ) : (stepsOn B n c).cycles = c.cycles + cyclesOn B n c := by
  induction n with
  | zero => rfl
  | succ n ih => rw [stepsOn_succ_last, stepOn_cycles, ih, cyclesOn_succ_last, Nat.add_assoc]

/-! ## What both drive modes do -/

variable (B) in
/-- `Drives B go used c n f`: from `c`, with `used` cycles returned before, `n` steps are made, `go` holding before each,
and end with the fault `f` if one is returned. -/
inductive Drives (go : Nat → Cpu σ → Prop) : Nat → Cpu σ → Nat → Option (Byte × Word) → Prop where
  | done (used : Nat) (c : Cpu σ) : Drives go used c 0 none
  | fault {used : Nat} {c : Cpu σ} {opcode : Byte} {pc : Word} (hgo : go used c)
      (hstep : (stepOn B c).1 = .fault opcode pc) : Drives go used c 1 (some (opcode, pc))
  | step {used n m : Nat} {c : Cpu σ} {f : Option (Byte × Word)} (hgo : go used c)
      (hstep : (stepOn B c).1 = .cycles m) (hrest : Drives go (used + m) (stepOn B c).2 n f) :
      Drives go used c (n + 1) f

namespace Drives

variable {go : Nat → Cpu σ → Prop} {used n : Nat} {c : Cpu σ} {f : Option (Byte × Word)}

/-- The condition holds before each step. -/
theorem go_before (h : Drives B go used c n f) {k : Nat} (hk : k < n) :
    go (used + cyclesOn B k c) (stepsOn B k c) := by
  induction h generalizing k with
  | done used c => exact absurd hk (Nat.not_lt_zero k)
  | fault hgo hstep =>
    obtain rfl : k = 0 := by omega
    exact hgo
  | step hgo hstep hrest ih =>
    cases k with
    | zero => exact hgo
    | succ k =>
      have := ih (Nat.lt_of_succ_lt_succ hk)
      rwa [cyclesOn_succ, hstep, StepResult.consumed_cycles, ← Nat.add_assoc]

/-- Every step returns cycles, but for the last of a drive that ends with a fault. -/
theorem returns_cycles (h : Drives B go used c n f) {k : Nat} (hk : k < n) (hlast : f = none ∨ k + 1 ≠ n) :
    ∃ m, (stepOn B (stepsOn B k c)).1 = .cycles m := by
  induction h generalizing k with
  | done used c => exact absurd hk (Nat.not_lt_zero k)
  | fault hgo hstep =>
    obtain hnone | hlast := hlast
    · cases hnone
    · omega
  | step hgo hstep hrest ih =>
    cases k with
    | zero => exact ⟨_, hstep⟩
    | succ k => exact ih (Nat.lt_of_succ_lt_succ hk) (hlast.imp_right fun h hn => h (congrArg (· + 1) hn))

theorem cycles_before_last (h : Drives B go used c n f) (k : Nat) (hk : k + 1 < n) :
    ∃ m, (stepOn B (stepsOn B k c)).1 = .cycles m :=
  h.returns_cycles (Nat.lt_of_succ_lt hk) (.inr hk.ne)

theorem cycles_at_last (h : Drives B go used c n none) (k : Nat) (hk : k + 1 = n) :
    ∃ m, (stepOn B (stepsOn B k c)).1 = .cycles m :=
  h.returns_cycles (by omega) (.inl rfl)

/-- The fault is the one that the last step returns. -/
theorem fault_at_last (h : Drives B go used c n f) {opcode : Byte} {pc : Word} (hf : f = some (opcode, pc)) :
    ∃ k, k + 1 = n ∧ (stepOn B (stepsOn B k c)).1 = .fault opcode pc := by
  induction h with
  | done used c => cases hf
  | fault hgo hstep =>
    cases hf
    exact ⟨0, rfl, hstep⟩
  | step hgo hstep hrest ih =>
    obtain ⟨k, rfl, hk⟩ := ih hf
    exact ⟨k + 1, rfl, hk⟩

theorem fault_latched (h : Drives B go used c n f) {opcode : Byte} {pc : Word} (hf : f = some (opcode, pc)) :
    (stepsOn B n c).fault = some (opcode, pc) := by
  obtain ⟨k, rfl, hk⟩ := h.fault_at_last hf
  rw [stepsOn_succ_last]
  exact fault_latched_of_stepOn hk

end Drives

theorem stepOn_eq_of_fst {c : Cpu σ} {r : StepResult} (h : (stepOn B c).1 = r) : stepOn B c = (r, (stepOn B c).2) :=
  Prod.ext h rfl

/-! ## `runUntil` (R402) -/

theorem runUntilLoop_of_met {budget used : Nat} (h : budget ≤ used) (fuel : Nat) (c : Cpu σ) :
    runUntilLoop B budget fuel used c = (⟨used, none⟩, c) := by
  cases fuel with
  | zero => rfl
  | succ fuel => rw [runUntilLoop, if_neg (Nat.not_lt.mpr h)]

theorem runUntilLoop_of_fault {budget used : Nat} (h : used < budget) (fuel : Nat) {c : Cpu σ} {opcode : Byte}
    {pc : Word} (hstep : (stepOn B c).1 = .fault opcode pc) :
    runUntilLoop B budget (fuel + 1) used c = (⟨used, some (opcode, pc)⟩, (stepOn B c).2) := by
  rw [runUntilLoop, if_pos h, stepOn_eq_of_fst hstep]

theorem runUntilLoop_of_cycles {budget used : Nat} (h : used < budget) (fuel : Nat) {c : Cpu σ} {m : Nat}
    (hstep : (stepOn B c).1 = .cycles m) :
    runUntilLoop B budget (fuel + 1) used c = runUntilLoop B budget fuel (used + m) (stepOn B c).2 := by
  rw [runUntilLoop, if_pos h, stepOn_eq_of_fst hstep]

variable (B) in
/-- What `runUntil` answers: it drives while the budget is unmet, and unless a fault ends it, until it is met. -/
structure DrivesUntil (budget used : Nat) (c : Cpu σ) (r : RunResult × Cpu σ) (n : Nat) : Prop where
  drives : Drives B (fun used _ => used < budget) used c n r.1.fault
  state : r.2 = stepsOn B n c
  used : r.1.used = used + cyclesOn B n c
  met : r.1.fault = none → budget ≤ r.1.used

/-- Each step returns at least 2 cycles, so fuel for the rest of the budget is enough (log 7). -/
theorem drivesUntil_runUntilLoop {budget used fuel : Nat} (hfuel : budget ≤ used + fuel) (c : Cpu σ) :
    ∃ n, DrivesUntil B budget used c (runUntilLoop B budget fuel used c) n := by
  induction fuel generalizing used c with
  | zero => exact ⟨0, .done used c, rfl, rfl, fun _ => hfuel⟩
  | succ fuel ih =>
    obtain hunmet | hmet := Nat.lt_or_ge used budget
    · obtain ⟨m, hstep, hm, -⟩ | ⟨opcode, pc, hstep, -⟩ := stepOn_result_cases B c
      · obtain ⟨n, hdrives, hstate, hused, hmet⟩ := ih (used := used + m) (by omega) (stepOn B c).2
        rw [runUntilLoop_of_cycles hunmet fuel hstep]
        refine ⟨n + 1, .step hunmet hstep hdrives, hstate, ?_, hmet⟩
        rw [hused, cyclesOn_succ, hstep, StepResult.consumed_cycles, Nat.add_assoc]
      · rw [runUntilLoop_of_fault hunmet fuel hstep]
        refine ⟨1, .fault hunmet hstep, rfl, ?_, nofun⟩
        rw [cyclesOn_succ, hstep]
        rfl
    · rw [runUntilLoop_of_met hmet]
      exact ⟨0, .done used c, rfl, rfl, fun _ => hmet⟩

/-- The cycles used exceed the budget by less than the last step's. -/
theorem DrivesUntil.overshoot {budget k m : Nat} {c : Cpu σ} {r : RunResult × Cpu σ}
    (h : DrivesUntil B budget 0 c r (k + 1)) (hm : (stepOn B (stepsOn B k c)).1.consumed = m) :
    r.1.used < budget + m := by
  have hunmet := h.drives.go_before (Nat.lt_succ_self k)
  have hused := h.used
  rw [cyclesOn_succ_last, hm] at hused
  omega

theorem stepOn_consumed_le_seven (c : Cpu σ) : (stepOn B c).1.consumed ≤ 7 := by
  obtain ⟨m, hm, -, h7⟩ | ⟨opcode, pc, hfault, -⟩ := stepOn_result_cases B c
  · rwa [hm]
  · rw [hfault]
    exact Nat.zero_le 7

/-- Settles O57: the drive while the budget is unmet, with the end of its last step. -/
theorem runUntilMeetsItsBudget : Obligations.RunUntilMeetsItsBudget := by
  intro σ B budget c r
  obtain ⟨n, h⟩ : ∃ n, DrivesUntil B budget 0 c r n := drivesUntil_runUntilLoop (by omega) c
  have hused : r.1.used = cyclesOn B n c := h.used.trans (Nat.zero_add _)
  refine ⟨⟨n, h.state, hused, fun k hk => ?_, h.drives.cycles_before_last, ?_⟩, ?_, ?_, fun f hf => ?_, ?_⟩
  · simpa using h.drives.go_before hk
  · cases hf : r.1.fault with
    | none =>
      have hdrives := h.drives
      rw [hf] at hdrives
      refine ⟨h.met hf, fun k hk => ?_⟩
      obtain ⟨m, hm⟩ := hdrives.cycles_at_last k hk
      subst hk
      exact ⟨m, hm, h.overshoot (by rw [hm]; rfl)⟩
    | some fault => exact h.drives.fault_at_last hf
  · cases n with
    | zero =>
      rw [hused, cyclesOn_zero]
      omega
    | succ k =>
      have hlast := stepOn_consumed_le_seven (B := B) (stepsOn B k c)
      have hover := h.overshoot rfl
      omega
  · rw [h.state, stepsOn_cycles, hused]
  · rw [h.state]
    exact h.drives.fault_latched hf
  · rintro rfl
    rfl

/-! ## `run(stop)` (R403, R406) -/

variable {stop : Cpu σ → Bool}

theorem runFor_of_stop {c : Cpu σ} (h : stop c = true) (fuel : Nat) : runFor B stop fuel c = (.stopped, c) := by
  cases fuel with
  | zero => rw [runFor, if_pos h]
  | succ fuel => rw [runFor, if_pos h]

theorem runFor_zero_of_go {c : Cpu σ} (h : stop c = false) : runFor B stop 0 c = (.running, c) := by
  rw [runFor, h]
  rfl

theorem runFor_of_fault {c : Cpu σ} (h : stop c = false) (fuel : Nat) {opcode : Byte} {pc : Word}
    (hstep : (stepOn B c).1 = .fault opcode pc) :
    runFor B stop (fuel + 1) c = (.fault opcode pc, (stepOn B c).2) := by
  rw [runFor, h, stepOn_eq_of_fst hstep]
  rfl

theorem runFor_of_cycles {c : Cpu σ} (h : stop c = false) (fuel : Nat) {m : Nat} (hstep : (stepOn B c).1 = .cycles m) :
    runFor B stop (fuel + 1) c = runFor B stop fuel (stepOn B c).2 := by
  rw [runFor, h, stepOn_eq_of_fst hstep]
  rfl

/-- The fault that an end reports. -/
def RunEnd.reported : RunEnd → Option (Byte × Word)
  | .fault opcode pc => some (opcode, pc)
  | .stopped | .running => none

variable (B) in
/-- What a bounded run answers: it drives while the predicate is false, and ends as it says. -/
structure DrivesFor (stop : Cpu σ → Bool) (fuel : Nat) (c : Cpu σ) (r : RunEnd × Cpu σ) (n : Nat) : Prop where
  bound : n ≤ fuel
  drives : ∀ used, Drives B (fun _ c => stop c = false) used c n r.1.reported
  state : r.2 = stepsOn B n c
  stopped : r.1 = .stopped → stop r.2 = true
  running : r.1 = .running → n = fuel ∧ stop r.2 = false

theorem drivesFor_runFor (stop : Cpu σ → Bool) (fuel : Nat) (c : Cpu σ) :
    ∃ n, DrivesFor B stop fuel c (runFor B stop fuel c) n := by
  induction fuel generalizing c with
  | zero =>
    cases hstop : stop c with
    | true =>
      rw [runFor_of_stop hstop]
      exact ⟨0, Nat.le_refl 0, fun used => .done used c, rfl, fun _ => hstop, nofun⟩
    | false =>
      rw [runFor_zero_of_go hstop]
      exact ⟨0, Nat.le_refl 0, fun used => .done used c, rfl, nofun, fun _ => ⟨rfl, hstop⟩⟩
  | succ fuel ih =>
    cases hstop : stop c with
    | true =>
      rw [runFor_of_stop hstop]
      exact ⟨0, Nat.zero_le _, fun used => .done used c, rfl, fun _ => hstop, nofun⟩
    | false =>
      obtain ⟨m, hstep, -⟩ | ⟨opcode, pc, hstep, -⟩ := stepOn_result_cases B c
      · obtain ⟨n, hbound, hdrives, hstate, hstopped, hrunning⟩ := ih (stepOn B c).2
        rw [runFor_of_cycles hstop fuel hstep]
        exact ⟨n + 1, Nat.succ_le_succ hbound, fun used => .step hstop hstep (hdrives (used + m)), hstate, hstopped,
          fun h => (hrunning h).imp_left (congrArg (· + 1))⟩
      · rw [runFor_of_fault hstop fuel hstep]
        exact ⟨1, Nat.succ_le_succ (Nat.zero_le fuel), fun used => .fault hstop hstep, rfl, nofun, nofun⟩

/-- A longer bound does not change an end that is not running. -/
theorem runFor_add {fuel : Nat} {c : Cpu σ} (h : (runFor B stop fuel c).1 ≠ .running) (more : Nat) :
    runFor B stop (fuel + more) c = runFor B stop fuel c := by
  induction fuel generalizing c with
  | zero =>
    cases hstop : stop c with
    | true => rw [runFor_of_stop hstop, runFor_of_stop hstop]
    | false => exact absurd (congrArg Prod.fst (runFor_zero_of_go hstop)) h
  | succ fuel ih =>
    rw [Nat.add_right_comm]
    cases hstop : stop c with
    | true => rw [runFor_of_stop hstop, runFor_of_stop hstop]
    | false =>
      obtain ⟨m, hstep, -⟩ | ⟨opcode, pc, hstep, -⟩ := stepOn_result_cases B c
      · rw [runFor_of_cycles hstop fuel hstep] at h ⊢
        rw [runFor_of_cycles hstop _ hstep]
        exact ih h
      · rw [runFor_of_fault hstop _ hstep, runFor_of_fault hstop _ hstep]

/-- Settles O58: the drive while the predicate is false, with the end of its last step. -/
theorem runForEndsAsItSays : Obligations.RunForEndsAsItSays := by
  intro σ B stop fuel c r
  refine ⟨?_, runFor_add⟩
  obtain ⟨n, h⟩ : ∃ n, DrivesFor B stop fuel c r n := drivesFor_runFor stop fuel c
  have hdrives := h.drives 0
  refine ⟨n, h.bound, h.state, fun k hk => hdrives.go_before hk, hdrives.cycles_before_last, ?_⟩
  cases hr : r.1 with
  | stopped =>
    rw [hr] at hdrives
    exact ⟨h.stopped hr, hdrives.cycles_at_last⟩
  | fault opcode pc =>
    rw [hr] at hdrives
    rw [h.state]
    exact ⟨hdrives.fault_at_last rfl, hdrives.fault_latched rfl⟩
  | running =>
    rw [hr] at hdrives
    obtain ⟨hn, hgo⟩ := h.running hr
    exact ⟨hn, hgo, hdrives.cycles_at_last⟩

end Sys2Proof.Machine
end

section
/-! # Proofs: arithmetic and compare (41_arith_compare.md) -/

namespace Sys2Proof.Machine

/-! ## What a read instruction does: its executor runs on the state past the instruction -/

theorem exec_read_past {i : Instr} {o : ReadOp} {src : ReadOperand} (s : State) (h : i.form = .read o src) :
    exec i s = .next ⟨readExecutor o (s.load src) (s.past i (baseCost i (s.loadCrosses src))).toCpu⟩ := by
  rw [exec_read s h]
  cases o <;> rfl

/-! ## ADC and SBC run the adder (R501, R502) -/

/-- The instruction is a form of ADC or SBC, and `m` is the byte it gives the adder: ADC's operand, or the one's
complement of SBC's (R501, R502). -/
def FeedsAdder (i : Instr) (src : ReadOperand) (s : State) (m : Byte) : Prop :=
  (i.form = .read .adc src ∧ m = s.load src) ∨ (i.form = .read .sbc src ∧ m = ~~~(s.load src))

/-- ADC and SBC share the adder. -/
theorem FeedsAdder.exec {i : Instr} {src : ReadOperand} {s : State} {m : Byte} (h : FeedsAdder i src s m) :
    exec i s = .next
      { s.past i (baseCost i (s.loadCrosses src)) with a := addResult s.a m s.p.c, p := s.p.afterAdd s.a m } := by
  obtain ⟨hf, rfl⟩ | ⟨hf, rfl⟩ := h
  · exact exec_read_past s hf
  · exact exec_read_past s hf

/-! ## The adder's flags (R500) -/

theorem addSum_eq_ite (a m : Byte) (carry : Bool) :
    addSum a m carry = a.toNat + m.toNat + (if carry then 1 else 0) := by
  cases carry <;> rfl

theorem toNat_addResult (a m : Byte) (carry : Bool) : (addResult a m carry).toNat = addSum a m carry % 256 :=
  BitVec.toNat_ofNat _ _

/-- The flags of the adder in the terms of claims. -/
theorem Flags.afterAdd_eq_withZN (a m : Byte) (p : Flags) :
    p.afterAdd a m = Flags.withZN
      { p with
        c := decide (255 < addSum a m p.c)
        v := decide (((a ^^^ addResult a m p.c) &&& (m ^^^ addResult a m p.c) &&& 0x80) ≠ 0) }
      (addResult a m p.c) := by
  simp only [Flags.afterAdd, setZN_eq_withZN, bne, beq_eq_decide, gt_iff_lt, ne_eq, decide_not]

theorem and_signBit_ne_zero_iff (v : Byte) : v &&& 0x80 ≠ 0 ↔ v.msb = true := by
  have hsign : v &&& 0x80 = if v.getLsbD 7 then 0x80 else 0 := BitVec.and_twoPow v 7
  rw [hsign, BitVec.msb_eq_getLsbD_last]
  cases v.getLsbD 7 <;> decide

/-- The sign formula of V: both addends have the sign that the result does not have. -/
theorem overflowFormula_iff (a m r : Byte) :
    (a ^^^ r) &&& (m ^^^ r) &&& 0x80 ≠ 0 ↔ a.msb ≠ r.msb ∧ m.msb ≠ r.msb := by
  rw [and_signBit_ne_zero_iff, BitVec.msb_and, BitVec.msb_xor, BitVec.msb_xor, Bool.and_eq_true]
  exact Iff.and Bool.xor_iff_ne Bool.xor_iff_ne

/-- Read as signed bytes, the result is the exact signed sum wrapped to a byte. -/
theorem toInt_addResult (a m : Byte) (carry : Bool) :
    (addResult a m carry).toInt = (a.toInt + m.toInt + (if carry then 1 else 0)).bmod 256 := by
  have hofNat : (addResult a m carry).toInt = (addSum a m carry : Int).bmod 256 := BitVec.toInt_ofNat' _
  have ha : a.toInt = (a.toNat : Int).bmod 256 := BitVec.toInt_eq_toNat_bmod a
  have hm : m.toInt = (m.toNat : Int).bmod 256 := BitVec.toInt_eq_toNat_bmod m
  rw [hofNat, addSum_eq_ite, ha, hm, Int.add_assoc, Int.bmod_add_bmod, Int.add_left_comm, Int.bmod_add_bmod]
  push_cast
  congr 1
  ring

/-- V is signed overflow: the exact signed sum is no signed byte (R500). -/
theorem Flags.afterAdd_v (a m : Byte) (p : Flags) :
    (p.afterAdd a m).v =
      decide (a.toInt + m.toInt + (if p.c then 1 else 0) < -128 ∨
        127 < a.toInt + m.toInt + (if p.c then 1 else 0)) := by
  have ha : -128 ≤ a.toInt ∧ a.toInt ≤ 127 := ⟨BitVec.le_toInt a, Int.le_of_lt_add_one BitVec.toInt_lt⟩
  have hm : -128 ≤ m.toInt ∧ m.toInt ≤ 127 := ⟨BitVec.le_toInt m, Int.le_of_lt_add_one BitVec.toInt_lt⟩
  rw [Flags.afterAdd_eq_withZN, Flags.withZN, decide_eq_decide, overflowFormula_iff]
  simp only [BitVec.msb_eq_toInt, toInt_addResult, Int.bmod_def, ne_eq, decide_eq_decide]
  omega

/-- Settles O25: both instructions run the adder, whose sum and flags are the stated ones. -/
theorem adcAndSbcUseTheSharedAdder : Obligations.AdcAndSbcUseTheSharedAdder := by
  refine ⟨encodes_of_check (by decide +kernel), fun i src m s h => ?_⟩
  simp only [← addSum_eq_ite]
  rw [FeedsAdder.exec h, Flags.afterAdd_eq_withZN, addResult]

/-! ## Subtraction: the adder on the one's complement (R502) -/

theorem toInt_not_byte (m : Byte) : (~~~m).toInt = -1 - m.toInt := by
  have hm := m.isLt
  simp only [BitVec.toInt_eq_toNat_cond, BitVec.toNat_not]
  split <;> split <;> omega

/-- The adder's sum is 256 more than the difference with borrow. -/
theorem addSum_not (a m : Byte) (carry : Bool) :
    (addSum a (~~~m) carry : Int) = a.toNat - m.toNat - (1 - if carry then 1 else 0) + 256 := by
  have hm := m.isLt
  rw [addSum_eq_ite, BitVec.toNat_not]
  cases carry <;> simp <;> omega

/-- Settles O26: the sum on the complement is the difference plus 256, and V is signed overflow of either. -/
theorem sbcBorrowsAndOverflowIsSigned : Obligations.SbcBorrowsAndOverflowIsSigned := by
  refine ⟨encodes_of_check (by decide +kernel), fun i src s h => ?_, fun i src s h => ?_⟩
  · have hsum := addSum_not s.a (s.load src) s.p.c
    refine ⟨_, FeedsAdder.exec (.inr ⟨h, rfl⟩), ?_, ?_, ?_⟩
    · rw [toNat_addResult]
      omega
    · rw [Flags.afterAdd_eq_withZN, Flags.withZN, decide_eq_decide]
      omega
    · rw [Flags.afterAdd_v, toInt_not_byte, decide_eq_decide]
      omega
  · exact ⟨_, FeedsAdder.exec (.inl ⟨h, rfl⟩), Flags.afterAdd_v _ _ _⟩

/-! ## Compare (R503) -/

/-- The flags of a comparison as facts of the unsigned numbers. -/
theorem Flags.afterCompare_eq (reg m : Byte) (p : Flags) :
    p.afterCompare reg m =
      { p with
        c := decide (m.toNat ≤ reg.toNat)
        z := decide (m.toNat = reg.toNat)
        n := decide (128 ≤ (reg.toNat + 256 - m.toNat) % 256) } := by
  have hz : (reg == m) = decide (m.toNat = reg.toNat) := by
    rw [beq_eq_decide, decide_eq_decide, BitVec.toNat_inj, eq_comm]
  have hn : bit (reg - m) 7 = decide (128 ≤ (reg.toNat + 256 - m.toNat) % 256) := by
    have hm := m.isLt
    rw [bit_seven, BitVec.toNat_sub, decide_eq_decide]
    omega
  rw [Flags.afterCompare, hz, hn]

/-- Settles O27: each of the three is its register's comparison. -/
theorem comparesSetCarryZeroNegative : Obligations.ComparesSetCarryZeroNegative := by
  refine ⟨encodes_of_check (by decide +kernel), encodes_of_check (by decide +kernel),
    encodes_of_check (by decide +kernel), fun i src reg s h => ?_⟩
  simp only [← Flags.afterCompare_eq]
  obtain ⟨hf, rfl⟩ | ⟨hf, rfl⟩ | ⟨hf, rfl⟩ := h
  · exact exec_read_past s hf
  · exact exec_read_past s hf
  · exact exec_read_past s hf

end Sys2Proof.Machine
end

section
/-! # Proofs: shifts, rotates, increments and decrements (42_shift_incdec.md) -/

namespace Sys2Proof.Machine

/-! ## What a read-modify-write instruction does: its byte function, at the base count (R432, R441) -/

/-- No read-modify-write row has the `*` (R441). -/
theorem cost_of_modify {i : Instr} {o : ModifyOp} {target : ModifyOperand} (h : i.form = .modify o target)
    (cross : Bool) : cost i cross 0 = i.row.base := by
  simp [cost, row_pageCross, h, isRead]

theorem exec_modify_accumulator_past {i : Instr} {o : ModifyOp} (s : State) (h : i.form = .modify o .accumulator) :
    exec i s = .next
      { s.past i i.row.base with a := (byteFunction o s.a s.p).1, p := (byteFunction o s.a s.p).2 } := by
  rw [exec_modify_accumulator s h, cost_of_modify h]
  rfl

theorem exec_modify_memory_past {i : Instr} {o : ModifyOp} {m : MemOperand} (s : State)
    (h : i.form = .modify o (.memory m)) :
    exec i s = .next
      { s.past i i.row.base with
        mem := Memory.write s.mem (s.ea m) (byteFunction o (s.peek (s.ea m)) s.p).1
        p := (byteFunction o (s.peek (s.ea m)) s.p).2 } := by
  rw [exec_modify_memory s h, cost_of_modify h]
  rfl

/-! ## Shifts and rotates (R600 to R603) -/

theorem shifted_eq_withZN (r : Byte) (carry : Bool) (p : Flags) :
    shifted r carry p = (r, Flags.withZN { p with c := carry } r) := by
  rw [shifted, setZN_eq_withZN]

/-- The byte function decides both forms. -/
theorem shiftsTo_of_byteFunction {o : ModifyOp} {result : Byte → Bool → Nat} {carry : Byte → Bool}
    (h : ∀ v p, byteFunction o v p = shifted (BitVec.ofNat 8 (result v p.c)) (carry v) p) :
    ShiftsTo o result carry := by
  refine ⟨fun i s hi => ?_, fun i m s hi => ?_⟩
  · rw [exec_modify_accumulator_past s hi, h, shifted_eq_withZN]
  · rw [exec_modify_memory_past s hi, h, shifted_eq_withZN]

theorem bit_zero (v : Byte) : bit v 0 = decide (v.toNat % 2 = 1) := Nat.testBit_zero v.toNat

theorem shiftLeft_one_eq_ofNat (v : Byte) : v <<< 1 = BitVec.ofNat 8 (v.toNat * 2 % 256) := by
  apply BitVec.eq_of_toNat_eq
  rw [BitVec.toNat_shiftLeft, Nat.shiftLeft_eq, BitVec.toNat_ofNat, Nat.mod_mod]

theorem shiftRight_one_eq_ofNat (v : Byte) : v >>> 1 = BitVec.ofNat 8 (v.toNat / 2) := by
  apply BitVec.eq_of_toNat_eq
  rw [BitVec.toNat_ushiftRight, Nat.shiftRight_eq_div_pow, BitVec.toNat_ofNat]
  omega

/-- The carry comes in at the place that the shift has left free. -/
theorem shiftLeft_one_or_flagByte (v : Byte) (c : Bool) :
    v <<< 1 ||| flagByte c = BitVec.ofNat 8 (v.toNat * 2 % 256 + if c then 1 else 0) := by
  have hfree : v <<< 1 &&& flagByte c = 0#8 := by
    ext k hk
    obtain rfl | hk0 : k = 0 ∨ k ≠ 0 := by omega
    · simp
    · simp [getElem_flagByte, hk0]
  rw [← BitVec.add_eq_or_of_and_eq_zero _ _ hfree, shiftLeft_one_eq_ofNat, BitVec.ofNat_add]
  cases c <;> rfl

theorem shiftRight_one_or_flagByte (v : Byte) (c : Bool) :
    v >>> 1 ||| flagByte c <<< 7 = BitVec.ofNat 8 (v.toNat / 2 + if c then 128 else 0) := by
  have hfree : v >>> 1 &&& flagByte c <<< 7 = 0#8 := by
    ext k hk
    obtain rfl | hk7 : k = 7 ∨ k < 7 := by omega
    · simp
    · simp [hk7]
  rw [← BitVec.add_eq_or_of_and_eq_zero _ _ hfree, shiftRight_one_eq_ofNat, BitVec.ofNat_add]
  cases c <;> rfl

/-- Settles O32: the byte functions, read as numbers. -/
theorem shiftsAndRotatesThroughCarry : Obligations.ShiftsAndRotatesThroughCarry := by
  refine ⟨encodes_of_check (by decide +kernel), encodes_of_check (by decide +kernel),
    encodes_of_check (by decide +kernel), encodes_of_check (by decide +kernel),
    shiftsTo_of_byteFunction fun v p => ?_, shiftsTo_of_byteFunction fun v p => ?_,
    shiftsTo_of_byteFunction fun v p => ?_, shiftsTo_of_byteFunction fun v p => ?_⟩
  · rw [byteFunction, aslByte, shiftLeft_one_eq_ofNat, bit_seven]
  · rw [byteFunction, lsrByte, shiftRight_one_eq_ofNat, bit_zero]
  · rw [byteFunction, rolByte, shiftLeft_one_or_flagByte, bit_seven]
  · rw [byteFunction, rorByte, shiftRight_one_or_flagByte, bit_zero]

/-! ## Increments and decrements (R604 to R609) -/

theorem add_one_eq_ofNat (v : Byte) : v + 1 = BitVec.ofNat 8 (v.toNat + 1) := by
  rw [BitVec.ofNat_add, BitVec.ofNat_toNat, BitVec.setWidth_eq]
  rfl

theorem sub_one_eq_ofNat (v : Byte) : v - 1 = BitVec.ofNat 8 (v.toNat + 255) := by
  rw [BitVec.ofNat_add, BitVec.ofNat_toNat, BitVec.setWidth_eq]
  exact BitVec.sub_eq_add_neg v 1

theorem stepsMemoryBy_of_byteFunction {o : ModifyOp} {result : Byte → Byte}
    (h : ∀ v p, byteFunction o v p = (result v, p.setZN (result v))) : StepsMemoryBy o result := by
  intro i m s hi
  rw [exec_modify_memory_past s hi, h, setZN_eq_withZN]

/-- Settles O33: INC adds 1, DEC adds 255. -/
theorem incAndDecStepMemory : Obligations.IncAndDecStepMemory := by
  refine ⟨encodes_of_check (by decide +kernel), encodes_of_check (by decide +kernel),
    stepsMemoryBy_of_byteFunction fun v p => ?_, stepsMemoryBy_of_byteFunction fun v p => ?_⟩
  · rw [byteFunction, incByte, add_one_eq_ofNat]
  · rw [byteFunction, decByte, sub_one_eq_ofNat]

/-- Settles O35: each executor adds 1 or 255 to its register. -/
theorem indexRegistersCountModulo256 : Obligations.IndexRegistersCountModulo256 := by
  refine ⟨encodes_of_check (by decide +kernel), encodes_of_check (by decide +kernel),
    encodes_of_check (by decide +kernel), encodes_of_check (by decide +kernel), fun s => ?_⟩
  simp only [← add_one_eq_ofNat, ← sub_one_eq_ofNat, ← setZN_eq_withZN]
  exact ⟨exec_implied (i := .inx) s rfl, exec_implied (i := .iny) s rfl, exec_implied (i := .dex) s rfl,
    exec_implied (i := .dey) s rfl⟩

/-! ## The carry and A as a ring of nine bits that ROL and ROR turn (R602, R603) -/

/-- The carry above the bits of a byte. -/
def carryRing (c : Bool) (a : Byte) : BitVec 9 := BitVec.cons c a

@[simp] theorem setWidth_carryRing (c : Bool) (a : Byte) : (carryRing c a).setWidth 8 = a := BitVec.setWidth_cons

@[simp] theorem msb_carryRing (c : Bool) (a : Byte) : (carryRing c a).msb = c := BitVec.msb_cons

theorem getElem_carryRing (c : Bool) (a : Byte) {k : Nat} (hk : k < 9) :
    (carryRing c a)[k] = if h : k = 8 then c else a[k] := BitVec.getElem_cons hk

/-- One turn towards the carry, which comes in at bit 0. -/
def turnLeft (ring : BitVec 9) : BitVec 9 := ring.rotateLeft 1

/-- One turn away from the carry, which takes in bit 0. -/
def turnRight (ring : BitVec 9) : BitVec 9 := ring.rotateRight 1

theorem getElem_turnLeft (ring : BitVec 9) {k : Nat} (hk : k < 9) : (turnLeft ring)[k] = ring[(k + 8) % 9] := by
  rw [turnLeft, BitVec.getElem_rotateLeft]
  split <;> exact getElem_congr_idx (by omega)

theorem getElem_turnRight (ring : BitVec 9) {k : Nat} (hk : k < 9) : (turnRight ring)[k] = ring[(k + 1) % 9] := by
  rw [turnRight, BitVec.getElem_rotateRight]
  split <;> exact getElem_congr_idx (by omega)

/-- ROL turns the ring left. -/
theorem carryRing_rol (c : Bool) (a : Byte) :
    carryRing (bit a 7) (a <<< 1 ||| flagByte c) = turnLeft (carryRing c a) := by
  ext k hk
  rw [getElem_turnLeft _ hk, getElem_carryRing, getElem_carryRing]
  interval_cases k <;> simp [bit, getElem_flagByte]

/-- ROR turns the ring right. -/
theorem carryRing_ror (c : Bool) (a : Byte) :
    carryRing (bit a 0) (a >>> 1 ||| flagByte c <<< 7) = turnRight (carryRing c a) := by
  ext k hk
  rw [getElem_turnRight _ hk, getElem_carryRing, getElem_carryRing]
  interval_cases k <;> simp [bit, getElem_flagByte]

theorem getElem_turnLeft_iterate (n : Nat) (ring : BitVec 9) {k : Nat} (hk : k < 9) :
    (turnLeft^[n] ring)[k] = ring[(k + 8 * n) % 9] := by
  induction n generalizing ring with
  | zero => exact getElem_congr_idx (by omega)
  | succ n ih =>
    rw [Function.iterate_succ_apply, ih, getElem_turnLeft]
    exact getElem_congr_idx (by omega)

theorem turnLeft_iterate_nine (ring : BitVec 9) : turnLeft^[9] ring = ring := by
  ext k hk
  rw [getElem_turnLeft_iterate 9 ring hk]
  exact getElem_congr_idx (by omega)

theorem turnRight_leftInverse : Function.LeftInverse turnRight turnLeft := by
  intro ring
  ext k hk
  rw [getElem_turnRight _ hk, getElem_turnLeft]
  exact getElem_congr_idx (by omega)

/-- ROR turns back what ROL has turned. -/
theorem turnRight_iterate_nine (ring : BitVec 9) : turnRight^[9] ring = ring := by
  have h := turnRight_leftInverse.iterate 9 ring
  rwa [turnLeft_iterate_nine] at h

/-- The ring that stands in a state. -/
def State.ring (s : State) : BitVec 9 := carryRing s.p.c s.a

/-- A state past `k` rotates of A, with the ring and the flags Z and N that they leave. -/
def State.rotated (s : State) (k : Nat) (ring : BitVec 9) (z n : Bool) : State :=
  { s with
    a := ring.setWidth 8
    p := { s.p with c := ring.msb, z := z, n := n }
    pc := s.pc + BitVec.ofNat 16 k
    cycles := s.cycles + 2 * k }

@[simp] theorem State.ring_rotated (s : State) (k : Nat) (ring : BitVec 9) (z n : Bool) :
    (s.rotated k ring z n).ring = ring := BitVec.cons_msb_setWidth ring

theorem State.rotated_zero (s : State) : s.rotated 0 s.ring s.p.z s.p.n = s := by
  simp [State.rotated, State.ring]

theorem State.rotated_rotated (s : State) (j k : Nat) (ring ring' : BitVec 9) (z n z' n' : Bool) :
    (s.rotated j ring z n).rotated k ring' z' n' = s.rotated (j + k) ring' z' n' := by
  simp [State.rotated, BitVec.ofNat_add, Nat.mul_add, BitVec.add_assoc, Nat.add_assoc]

theorem execTimes_succ_of_next {i : Instr} {s t : State} (h : exec i s = .next t) (k : Nat) :
    execTimes i (k + 1) s = execTimes i k t := by
  simp only [execTimes, h]

/-- An instruction that turns the ring turns it `k` times when it runs `k` times. -/
theorem execTimes_rotated {i : Instr} {turn : BitVec 9 → BitVec 9}
    (h : ∀ s, ∃ z n, exec i s = .next (s.rotated 1 (turn s.ring) z n)) (k : Nat) (s : State) :
    ∃ z n, execTimes i k s = .next (s.rotated k (turn^[k] s.ring) z n) := by
  induction k generalizing s with
  | zero => exact ⟨s.p.z, s.p.n, congrArg _ s.rotated_zero.symm⟩
  | succ k ih =>
    obtain ⟨z, n, hexec⟩ := h s
    obtain ⟨z', n', hrest⟩ := ih (s.rotated 1 (turn s.ring) z n)
    refine ⟨z', n', ?_⟩
    rw [execTimes_succ_of_next hexec, hrest, State.ring_rotated, State.rotated_rotated, Nat.add_comm,
      Function.iterate_succ_apply]

/-- The accumulator forms have one byte and base 2 (R300). -/
theorem length_base_of_accumulator {i : Instr} {o : ModifyOp} (h : i.form = .modify o .accumulator) :
    i.length = 1 ∧ i.row.base = 2 := by
  cases i <;> cases h <;> exact ⟨rfl, rfl⟩

/-- A shift or rotate of A leaves the ring of its carry and its result. -/
theorem exec_accumulator_rotated {i : Instr} {o : ModifyOp} {s : State} {r : Byte} {carry : Bool}
    (hi : i.form = .modify o .accumulator) (h : byteFunction o s.a s.p = shifted r carry s.p) :
    exec i s = .next (s.rotated 1 (carryRing carry r) (r == 0) (bit r 7)) := by
  obtain ⟨hlength, hbase⟩ := length_base_of_accumulator hi
  rw [exec_modify_accumulator_past s hi, h, State.rotated, State.past, hlength, hbase, setWidth_carryRing,
    msb_carryRing]
  rfl

theorem exec_rolAcc (s : State) : ∃ z n, exec .rolAcc s = .next (s.rotated 1 (turnLeft s.ring) z n) := by
  rw [State.ring, ← carryRing_rol]
  exact ⟨_, _, exec_accumulator_rotated rfl rfl⟩

theorem exec_rorAcc (s : State) : ∃ z n, exec .rorAcc s = .next (s.rotated 1 (turnRight s.ring) z n) := by
  rw [State.ring, ← carryRing_ror]
  exact ⟨_, _, exec_accumulator_rotated rfl rfl⟩

/-- Settles O34: nine turns of a ring of nine bits. -/
theorem nineRotationsRestoreAccumulatorAndCarry : Obligations.NineRotationsRestoreAccumulatorAndCarry := by
  intro i s h
  have hrun : ∃ z n, execTimes i 9 s = .next (s.rotated 9 s.ring z n) := by
    obtain rfl | rfl := h
    · simpa only [turnLeft_iterate_nine] using execTimes_rotated exec_rolAcc 9 s
    · simpa only [turnRight_iterate_nine] using execTimes_rotated exec_rorAcc 9 s
  obtain ⟨z, n, hrun⟩ := hrun
  refine ⟨_, hrun, ?_⟩
  simp [State.rotated, State.ring]

end Sys2Proof.Machine
end

section
/-! # Proofs: branches, BIT and the flag instructions (43_branch_bit_flag.md) -/

namespace Sys2Proof.Machine

/-! ## BIT (R710) -/

theorem bit_six (v : Byte) : bit v 6 = decide (64 ≤ v.toNat % 128) := by
  have h : bit v 6 = decide (v.toNat / 64 % 2 = 1) := Nat.testBit_eq_decide_div_mod_eq
  rw [h, decide_eq_decide]
  omega

/-- BIT's flags as facts of the unsigned operand. -/
theorem Flags.afterBit_eq (a m : Byte) (p : Flags) :
    p.afterBit a m =
      { p with
        z := decide (a &&& m = 0)
        n := decide (128 ≤ m.toNat)
        v := decide (64 ≤ m.toNat % 128) } := by
  rw [Flags.afterBit, beq_eq_decide, bit_seven, bit_six]

/-- No row of BIT has the `*` (R710). -/
theorem baseCost_of_bit {i : Instr} {src : ReadOperand} (h : i.form = .read .bit src) (cross : Bool) :
    baseCost i cross = i.row.base := by
  cases i <;> cases h <;> rfl

/-- Settles O30: BIT's executor runs at the base count, and its flags are the stated ones. -/
theorem bitTestsAgainstA : Obligations.BitTestsAgainstA := by
  refine ⟨encodes_of_check (by decide +kernel), fun i src s h => ?_⟩
  simp only [← Flags.afterBit_eq]
  rw [exec_read_past s h, baseCost_of_bit h]
  rfl

/-! ## Branches (R700 to R708) -/

/-- Every branch has two bytes and base 2 (R300). -/
theorem length_base_of_branch {i : Instr} {o : BranchOp} {rel : Byte} (h : i.form = .branch o rel) :
    i.length = 2 ∧ i.row.base = 2 := by
  cases i <;> cases h <;> exact ⟨rfl, rfl⟩

theorem cost_false (i : Instr) (extra : Nat) : cost i false extra = i.row.base + extra := by
  simp [cost]

/-- Adding the signed offset to an address is the integer sum wrapped to a word (R700). -/
theorem add_sext16_eq_ofInt (w : Word) (b : Byte) : w + sext16 b = BitVec.ofInt 16 (w.toNat + b.toInt) := by
  rw [BitVec.ofInt_add, ← toInt_sext16, BitVec.ofInt_toInt, BitVec.ofInt_natCast, BitVec.ofNat_toNat,
    BitVec.setWidth_eq]

/-- Base 2, one more when taken, and one more when the pages differ (R700, R440). -/
theorem takenBranch_cycles (target next : Word) :
    2 + (1 + if pagesDiffer target next then 1 else 0) = if target.toNat / 256 = next.toNat / 256 then 3 else 4 := by
  rw [pagesDiffer_eq_decide]
  by_cases hpage : target.toNat / 256 = next.toNat / 256 <;> simp [hpage]

/-- The two outcomes of a branch: the next instruction, or the target relative to it (R700). -/
theorem exec_branch_eq_ite {i : Instr} {o : BranchOp} {rel : Byte} (s : State) (h : i.form = .branch o rel) :
    exec i s = .next
      (if branchCondition o s.p then
        { s with
          pc := s.pc + 2 + sext16 rel
          cycles := s.cycles +
            if (s.pc + 2 + sext16 rel).toNat / 256 = (s.pc + 2).toNat / 256 then 3 else 4 }
      else { s with pc := s.pc + 2, cycles := s.cycles + 2 }) := by
  obtain ⟨hlength, hbase⟩ := length_base_of_branch h
  rw [exec_branch s h]
  split
  next hc =>
    rw [runBranch_taken hc, hlength, cost_false, hbase, takenBranch_cycles]
    rfl
  next hc =>
    rw [runBranch_untaken (Bool.eq_false_of_not_eq_true hc), hlength, cost_false, hbase]
    rfl

/-- Settles O36: the branch's two outcomes, with the target as an integer sum and each condition as a flag's value. -/
theorem branchesTestOneFlag : Obligations.BranchesTestOneFlag := by
  refine ⟨encodes_of_check (by decide +kernel), encodes_of_check (by decide +kernel),
    encodes_of_check (by decide +kernel), encodes_of_check (by decide +kernel),
    encodes_of_check (by decide +kernel), encodes_of_check (by decide +kernel),
    encodes_of_check (by decide +kernel), encodes_of_check (by decide +kernel), fun i o rel s h => ?_⟩
  simp only [← add_sext16_eq_ofInt, exec_branch_eq_ite s h]
  cases o with
  | bcs | beq | bmi | bvs => simp only [beq_true]; rfl
  | bcc | bne | bpl | bvc => simp only [beq_false]; rfl

/-! ## Flag instructions (R720 to R726) -/

/-- Settles O37: each executor writes its flag alone. -/
theorem flagInstructionsSetOrClearOneFlag : Obligations.FlagInstructionsSetOrClearOneFlag := by
  refine ⟨encodes_of_check (by decide +kernel), encodes_of_check (by decide +kernel),
    encodes_of_check (by decide +kernel), encodes_of_check (by decide +kernel),
    encodes_of_check (by decide +kernel), fun s => ⟨?_, ?_, ?_, ?_, ?_⟩⟩
  · exact exec_implied (i := .sec) s rfl
  · exact exec_implied (i := .clc) s rfl
  · exact exec_implied (i := .sed) s rfl
  · exact exec_implied (i := .cld) s rfl
  · exact exec_implied (i := .clv) s rfl

/-! ## The interrupt mask (R724, R725, R1110) -/

/-- An IRQ is taken when its line is high and I is clear, unless an NMI goes first (R1110). -/
theorem Cpu.interruptPending_of_irq {σ : Type} {c : Cpu σ} (hn : c.nmiPending = false) (hq : c.irqLine = true)
    (hi : c.p.i = false) : c.interruptPending = some .irq := by
  simp [Cpu.interruptPending, hn, hq, hi]

/-- Settles O38: the executors write I alone, and the sampling reads the I they leave. -/
theorem interruptMaskActsFromTheNextStep : Obligations.InterruptMaskActsFromTheNextStep := by
  refine ⟨encodes_of_check (by decide +kernel), encodes_of_check (by decide +kernel), fun s =>
    ⟨_, _, exec_implied (i := .sei) s rfl, exec_implied (i := .cli) s rfl, rfl, rfl, fun hn => ?_, fun hn hq => ?_,
      fun hn => ?_⟩⟩
  · exact (Cpu.interruptPending_eq_none _).mpr ⟨hn, .inr rfl⟩
  · exact Cpu.interruptPending_of_irq hn hq rfl
  · exact ⟨Cpu.interruptPending_of_nmi _ hn, Cpu.interruptPending_of_nmi _ hn⟩

end Sys2Proof.Machine
end

section
/-! # Proofs: transfers, pushes and pulls (44_transfer_stack.md) -/

namespace Sys2Proof.Machine

/-! ## Packing and unpacking P (R110) -/

theorem Flags.bitAt_unpack (b : Byte) {k : Nat} (hk : k < 8) : (Flags.unpack b).bitAt k = b.getLsbD k := by
  interval_cases k <;> rfl

theorem Flags.unpack_pack (p : Flags) : Flags.unpack p.pack = p := by
  simp only [Flags.unpack, bit, Flags.getLsbD_pack]
  rfl

theorem Flags.pack_unpack (b : Byte) : (Flags.unpack b).pack = b := by
  apply BitVec.eq_of_getLsbD_eq
  intro k hk
  rw [Flags.getLsbD_pack, Flags.bitAt_unpack b hk]

/-- Unpacking the byte that PHP and BRK push gives the flags back with B and U set (R112). -/
theorem Flags.unpack_pushedByInstruction (p : Flags) :
    Flags.unpack p.pushedByInstruction = { p with b := true, u := true } := by
  simp only [Flags.unpack, bit, Flags.getLsbD_pushedByInstruction, Flags.bitAt]
  simp

theorem toNat_bit (v : Byte) (k : Nat) : (bit v k).toNat = v.toNat / 2 ^ k % 2 := Nat.toNat_testBit v.toNat k

/-- A byte is the sum of its bits, each times its weight. -/
theorem toNat_eq_sum_bits (v : Byte) :
    v.toNat = (bit v 0).toNat + 2 * (bit v 1).toNat + 4 * (bit v 2).toNat + 8 * (bit v 3).toNat +
      16 * (bit v 4).toNat + 32 * (bit v 5).toNat + 64 * (bit v 6).toNat + 128 * (bit v 7).toNat := by
  have := v.isLt
  simp only [toNat_bit]
  omega

theorem Flags.toNat_pack (p : Flags) :
    p.pack.toNat = p.c.toNat + 2 * p.z.toNat + 4 * p.i.toNat + 8 * p.d.toNat + 16 * p.b.toNat + 32 * p.u.toNat +
      64 * p.v.toNat + 128 * p.n.toNat := by
  rw [toNat_eq_sum_bits p.pack]
  simp only [bit, Flags.getLsbD_pack, Flags.bitAt]

/-! ## The pushes and the pulls (R810 to R813) -/

theorem exec_pha (s : State) :
    exec .pha s = .next
      { s with
        mem := Memory.write s.mem (stackSlot s.sp) s.a
        sp := s.sp - 1
        pc := s.pc + 1
        cycles := s.cycles + 3 } := by
  rw [exec_implied s (o := .pha) rfl, impliedExecutor, phaOp_ram]
  rfl

theorem exec_pla (s : State) :
    exec .pla s = .next
      { s with
        a := s.peek (stackSlot (s.sp + 1))
        p := s.p.withZN (s.peek (stackSlot (s.sp + 1)))
        sp := s.sp + 1
        pc := s.pc + 1
        cycles := s.cycles + 4 } := by
  rw [exec_implied s (o := .pla) rfl, impliedExecutor, plaOp_ram, setZN_eq_withZN]
  rfl

theorem exec_plp (s : State) :
    exec .plp s = .next
      { s with
        p := Flags.unpack (s.peek (stackSlot (s.sp + 1)))
        sp := s.sp + 1
        pc := s.pc + 1
        cycles := s.cycles + 4 } := by
  rw [exec_implied s (o := .plp) rfl, impliedExecutor, plpOp_ram]
  rfl

/-- Settles O48: PLP pulls from the slot PHP has just written, and unpacking that byte sets B and U alone. -/
theorem statusPushThenPullForcesBreakUnused : Obligations.StatusPushThenPullForcesBreakUnused := by
  refine ⟨fun s t h => ?_, Flags.unpack_pack, Flags.pack_unpack, Flags.toNat_pack⟩
  rw [exec_php] at h
  cases h
  have hsp : s.sp - 1 + 1 = s.sp := BitVec.sub_add_cancel s.sp 1
  have hpc : s.pc + 1 + 1 = s.pc + 2 := BitVec.add_assoc s.pc 1 1
  simp only [exec_plp, State.peek, hsp, hpc, Memory.read_write_same, Flags.unpack_pushedByInstruction]

/-- Settles O40: the rows, and what each push leaves. -/
theorem pushInstructionsStoreBelow : Obligations.PushInstructionsStoreBelow :=
  ⟨encodes_of_check (by decide +kernel), encodes_of_check (by decide +kernel), fun s => ⟨exec_pha s, exec_php s⟩⟩

/-- Settles O41: the rows, and what each pull leaves; packing PLP's flags gives back the byte they came from. -/
theorem pullInstructionsLoadFromAbove : Obligations.PullInstructionsLoadFromAbove :=
  ⟨encodes_of_check (by decide +kernel), encodes_of_check (by decide +kernel), fun s =>
    ⟨exec_pla s, _, exec_plp s, Flags.pack_unpack _⟩⟩

/-! ## The transfers (R800 to R805) -/

theorem exec_txs (s : State) : exec .txs s = .next { s with sp := s.x, pc := s.pc + 1, cycles := s.cycles + 2 } :=
  exec_implied (i := .txs) s rfl

/-- Settles O39: each executor copies its source, and PHA after TXS with X = 0 writes the lowest stack slot and wraps
SP. -/
theorem transfersCopyTheSource : Obligations.TransfersCopyTheSource := by
  refine ⟨encodes_of_check (by decide +kernel), encodes_of_check (by decide +kernel),
    encodes_of_check (by decide +kernel), encodes_of_check (by decide +kernel),
    encodes_of_check (by decide +kernel), encodes_of_check (by decide +kernel), fun s => ?_⟩
  simp only [← setZN_eq_withZN]
  refine ⟨exec_implied (i := .tax) s rfl, exec_implied (i := .tay) s rfl, exec_implied (i := .txa) s rfl,
    exec_implied (i := .tya) s rfl, exec_implied (i := .tsx) s rfl, exec_txs s,
    fun hx => ⟨_, _, exec_txs s, exec_pha _, ?_, ?_⟩⟩
  · simp only [hx]
    rfl
  · have hslot : stackSlot s.x = 0x0100 := by rw [hx]; rfl
    simp only [State.peek, hslot, Memory.read_write_same]

end Sys2Proof.Machine
end

section
/-! # Proofs: jumps, subroutines, the software interrupt and NOP (45_jump_interrupt_nop.md) -/

namespace Sys2Proof.Machine

/-! ## Jumps (R900) -/

/-- The pointer's high byte comes from the next address in its own page (R420). -/
theorem ea_indirect (s : State) (p : Word) :
    s.ea (.indirect p) =
      wordOf (s.peek (BitVec.ofNat 16 (p.toNat / 256 * 256 + (p.toNat + 1) % 256))) (s.peek p) := by
  rw [← wordOf_highByte_lowByte_succ, ← pointerHigh_eq_wordOf]
  rfl

theorem exec_jmpAbs (s : State) (a : Word) : exec (.jmpAbs a) s = .next { s with pc := a, cycles := s.cycles + 3 } :=
  exec_jump s (m := .absolute a) rfl

theorem exec_jmpInd (s : State) (p : Word) :
    exec (.jmpInd p) s = .next { s with pc := s.ea (.indirect p), cycles := s.cycles + 5 } :=
  exec_jump s (m := .indirect p) rfl

theorem eq_jmpInd_of_mode_indirect {i : Instr} (h : i.mode = .indirect) : ∃ p : Word, i = .jmpInd p := by
  cases i with
  | jmpInd p => exact ⟨p, rfl⟩
  | _ => cases h

/-- Settles O42: both forms go to the address their operand resolves to. -/
theorem jumpsGoToTheResolvedAddress : Obligations.JumpsGoToTheResolvedAddress := by
  refine ⟨encodes_of_check (by decide +kernel), fun s a p => ⟨exec_jmpAbs s a, ?_⟩,
    fun i => eq_jmpInd_of_mode_indirect⟩
  rw [exec_jmpInd, ea_indirect]

/-! ## The stack frame that is read back (R222, R223) -/

theorem stackSlot_ne {sp sp' : Byte} (h : sp ≠ sp') : stackSlot sp ≠ stackSlot sp' := mt stackSlot_injective h

theorem Memory.read_withWordPushed_low (m : Memory) (sp : Byte) (w : Word) :
    Memory.read (Memory.withWordPushed m sp w) (stackSlot (sp - 1)) = lowByte w := Memory.read_write_same _ _ _

theorem Memory.read_withWordPushed_high (m : Memory) (sp : Byte) (w : Word) :
    Memory.read (Memory.withWordPushed m sp w) (stackSlot sp) = highByte w := by
  have hslot : stackSlot sp ≠ stackSlot (sp - 1) := stackSlot_ne (by bv_omega)
  rw [Memory.withWordPushed, Memory.read_write_other _ _ _ _ hslot, Memory.read_write_same]

/-! ## Subroutines (R901, R902) -/

theorem exec_jsr (s : State) (a : Word) :
    exec (.jsr a) s = .next
      { s with
        mem := Memory.withWordPushed s.mem s.sp (s.pc + 2)
        sp := s.sp - 2
        pc := a
        cycles := s.cycles + 6 } := by
  have hlast : s.pc + BitVec.ofNat 16 3 - 1 = s.pc + 2 := by bv_omega
  rw [exec_call s (target := a) rfl, Cpu.pushWord_ram_slots, ← hlast]
  rfl

theorem exec_rts (s : State) :
    exec .rts s = .next
      { s with
        pc := wordOf (s.peek (stackSlot (s.sp + 2))) (s.peek (stackSlot (s.sp + 1))) + 1
        sp := s.sp + 2
        cycles := s.cycles + 6 } := by
  rw [exec_implied s (o := .rts) rfl, impliedExecutor, rtsOp_ram]
  rfl

/-- Settles O43: the row, and the call's push and jump. -/
theorem jsrPushesItsLastByteAddress : Obligations.JsrPushesItsLastByteAddress :=
  ⟨encodes_of_check (by decide +kernel), exec_jsr⟩

/-- RTS right after JSR pulls the word that JSR pushed. -/
theorem exec_rts_of_exec_jsr {s t : State} {a : Word} (h : exec (.jsr a) s = .next t) :
    exec .rts t = .next { t with pc := s.pc + 3, sp := s.sp, cycles := t.cycles + 6 } := by
  rw [exec_jsr] at h
  cases h
  have hhigh : s.sp - 2 + 2 = s.sp := by bv_omega
  have hlow : s.sp - 2 + 1 = s.sp - 1 := by bv_omega
  have hpc : s.pc + 2 + 1 = s.pc + 3 := by bv_omega
  simp only [exec_rts, State.peek, hhigh, hlow, Memory.read_withWordPushed_high, Memory.read_withWordPushed_low,
    wordOf_highByte_lowByte, hpc]

/-- Settles O44: RTS's equation, PopWord's definition, and the return past JSR's pushed word. -/
theorem rtsReturnsPastThePulledWord : Obligations.RtsReturnsPastThePulledWord :=
  ⟨encodes_of_check (by decide +kernel), exec_rts, fun _ _ _ => rfl, fun _ _ _ => exec_rts_of_exec_jsr⟩

/-! ## Entering a handler and returning from it (R903, R904, R1111, R1114) -/

/-- Settles O45: BRK's equation, its pushed address being two past the opcode. -/
theorem brkEntersTheHandler : Obligations.BrkEntersTheHandler := by
  refine ⟨encodes_of_check (by decide +kernel), fun s => ?_⟩
  have hpc : s.pc + 1 + 1 = s.pc + 2 := BitVec.add_assoc s.pc 1 1
  rw [exec_brk, hpc]
  rfl

theorem exec_rti (s : State) :
    exec .rti s = .next
      { s with
        p := Flags.unpack (s.peek (stackSlot (s.sp + 1)))
        pc := wordOf (s.peek (stackSlot (s.sp + 3))) (s.peek (stackSlot (s.sp + 2)))
        sp := s.sp + 3
        cycles := s.cycles + 6 } := by
  rw [exec_implied s (o := .rti) rfl, impliedExecutor, rtiOp_ram]
  rfl

/-- RTI undoes any frame of a pushed word and a status byte, whatever else has changed since. -/
theorem exec_rti_of_frame {t : State} {m : Memory} {sp : Byte} {w : Word} {status : Byte}
    (hmem : t.mem = Memory.write (Memory.withWordPushed m sp w) (stackSlot (sp - 2)) status) (hsp : t.sp = sp - 3) :
    exec .rti t = .next { t with pc := w, sp := sp, p := Flags.unpack status, cycles := t.cycles + 6 } := by
  have hstatus : t.sp + 1 = sp - 2 := by bv_omega
  have hlow : t.sp + 2 = sp - 1 := by bv_omega
  have hhigh : t.sp + 3 = sp := by bv_omega
  have hlow_ne : stackSlot (sp - 1) ≠ stackSlot (sp - 2) := stackSlot_ne (by bv_omega)
  have hhigh_ne : stackSlot sp ≠ stackSlot (sp - 2) := stackSlot_ne (by bv_omega)
  simp only [exec_rti, State.peek, hstatus, hlow, hhigh, hmem, Memory.read_write_same,
    Memory.read_write_other _ _ _ _ hlow_ne, Memory.read_write_other _ _ _ _ hhigh_ne,
    Memory.read_withWordPushed_low, Memory.read_withWordPushed_high, wordOf_highByte_lowByte]

/-- Unpacking the byte that an interrupt entry pushes gives the flags back with B clear and U set (R112). -/
theorem Flags.unpack_pushedByInterrupt (p : Flags) :
    Flags.unpack p.pushedByInterrupt = { p with b := false, u := true } := by
  simp only [Flags.unpack, bit, Flags.getLsbD_pushedByInterrupt, Flags.bitAt]
  simp

theorem exec_rti_of_exec_brk {s t : State} (h : exec .brk s = .next t) :
    exec .rti t = .next
      { t with pc := s.pc + 2, sp := s.sp, p := { s.p with b := true, u := true }, cycles := t.cycles + 6 } := by
  rw [exec_brk] at h
  cases h
  have hpc : s.pc + 1 + 1 = s.pc + 2 := BitVec.add_assoc s.pc 1 1
  rw [exec_rti_of_frame rfl rfl, Flags.unpack_pushedByInstruction, hpc]

theorem exec_rti_of_interrupt {s t : State} (h : step s = .next t) (hq : ¬ s.quiet) :
    exec .rti t = .next
      { t with pc := s.pc, sp := s.sp, p := { s.p with b := false, u := true }, cycles := t.cycles + 6 } := by
  obtain ⟨-, src, -, rfl⟩ := step_takes_interrupt h hq
  rw [Cpu.takeInterrupt_ram, exec_rti_of_frame rfl rfl, Flags.unpack_pushedByInterrupt]

/-- Settles O46: RTI's equation, and that it undoes the frames of BRK and of an interrupt entry. -/
theorem rtiReturnsFromTheHandler : Obligations.RtiReturnsFromTheHandler :=
  ⟨encodes_of_check (by decide +kernel), fun s => ⟨_, Flags.pack_unpack _, exec_rti s⟩,
    fun _ _ => exec_rti_of_exec_brk, fun _ _ => exec_rti_of_interrupt⟩

/-! ## NOP (R905) -/

/-- A state after NOP: PC one on, 2 cycles more, and nothing else. -/
def State.afterNop (s : State) : State := { s with pc := s.pc + 1, cycles := s.cycles + 2 }

theorem exec_nop (s : State) : exec .nop s = .next s.afterNop := exec_implied s (o := .nop) rfl

theorem eq_nop_of_form {i : Instr} (h : i.form = .implied .nop) : i = .nop :=
  formsOfInstructionsAreTheWellFormedOnes.2 i .nop h

/-- The registers and the flags of a core. -/
def Cpu.registers {σ : Type} (c : Cpu σ) : Byte × Byte × Byte × Byte × Flags := (c.a, c.x, c.y, c.sp, c.p)

/-- A state with a different value in each register and every flag at `f`, in which a write to a register or a flag can
be told from none. -/
def nopProbe (f : Bool) : State :=
  { State.reset with a := 1, x := 2, y := 3, sp := 4, p := ⟨f, f, f, f, f, f, f, f⟩ }

/-- Every shift, rotate, increment and decrement changes 1. -/
theorem byteFunction_nopProbe_ne (o : ModifyOp) :
    (byteFunction o (nopProbe false).a (nopProbe false).p).1 ≠ (nopProbe false).a := by
  cases o <;> decide

/-- Every operation of mode Implied but NOP changes a register or a flag: those that clear a flag where all are set, the
others where all are clear. -/
theorem impliedExecutor_nopProbe_ne {o : ImpliedOp} (ho : o ≠ .nop) :
    ∃ f, (impliedExecutor Bus.ram o ((nopProbe f).toCpu.advance 1)).registers ≠ (nopProbe f).toCpu.registers := by
  cases o with
  | nop => exact absurd rfl ho
  | clc | cld | cli | clv => exact ⟨true, by decide⟩
  | _ => exact ⟨false, by decide⟩

/-- Every branch has flags that do not take it. -/
theorem exists_branchCondition_false (o : BranchOp) : ∃ f, branchCondition o (nopProbe f).p = false := by
  cases o with
  | bcc | bne | bpl | bvc => exact ⟨true, rfl⟩
  | bcs | beq | bmi | bvs => exact ⟨false, rfl⟩

/-- The forms of mode Implied: those of A, and the operations that have no other mode (R411). -/
theorem form_of_mode_implied {f : Form} (h : f.mode = .implied) :
    (∃ o, f = .modify o .accumulator) ∨ ∃ o, f = .implied o := by
  have hmem (m : MemOperand) : m.mode ≠ .implied := by cases m <;> nofun
  cases f with
  | modify o target =>
    cases target with
    | accumulator => exact .inl ⟨o, rfl⟩
    | memory m => exact absurd h (hmem m)
  | implied o => exact .inr ⟨o, rfl⟩
  | read o src =>
    cases src with
    | immediate b => cases h
    | memory m => exact absurd h (hmem m)
  | store o m | jump m => exact absurd h (hmem m)
  | branch o rel | call target => cases h

theorem length_of_implied {i : Instr} {o : ImpliedOp} (h : i.form = .implied o) : i.length = 1 := by
  rw [Instr.length, Instr.mode, h]
  rfl

/-- No other mode has length 1, the lengths compared as PC adds them (R302). -/
theorem eq_implied_of_length {m : Mode} (h : (1 : Word) = BitVec.ofNat 16 (1 + m.operandBytes)) : m = .implied := by
  cases m with
  | implied => rfl
  | _ => exact absurd h (by decide)

/-- JMP charges more than NOP (R900). -/
theorem three_le_base_of_jump {i : Instr} {m : MemOperand} (h : i.form = .jump m) : 3 ≤ i.row.base := by
  cases i <;> cases h <;> exact Nat.le_of_ble_eq_true rfl

/-- The instruction leaves every state as NOP does. -/
def ActsAsNop (i : Instr) : Prop := ∀ s : State, exec i s = .next s.afterNop

section
variable {i : Instr} (h : ActsAsNop i)
include h

/-- A branch that is not taken passes two bytes. -/
theorem ActsAsNop.not_branch (o : BranchOp) (rel : Byte) : i.form ≠ .branch o rel := by
  intro hf
  obtain ⟨f, hc⟩ := exists_branchCondition_false o
  have hexec := h (nopProbe f)
  rw [exec_branch_eq_ite _ hf, hc] at hexec
  have hpc : (nopProbe f).pc + 2 = (nopProbe f).pc + 1 := congrArg (·.pc) (Host.Outcome.next.inj hexec)
  bv_omega

theorem ActsAsNop.not_jump (m : MemOperand) : i.form ≠ .jump m := by
  intro hf
  have hexec := h (nopProbe false)
  rw [exec_jump _ hf] at hexec
  have hcost : cost i ((nopProbe false).crosses m) 0 = 2 :=
    Nat.add_left_cancel (congrArg (·.cycles) (Host.Outcome.next.inj hexec))
  have hbase := three_le_base_of_jump hf
  rw [cost] at hcost
  omega

/-- A call moves SP. -/
theorem ActsAsNop.not_call (target : Word) : i.form ≠ .call target := by
  intro hf
  have hexec := h (nopProbe false)
  rw [exec_call _ hf, Cpu.pushWord_ram_slots] at hexec
  have hsp : (nopProbe false).sp - 2 = (nopProbe false).sp := congrArg (·.sp) (Host.Outcome.next.inj hexec)
  bv_omega

/-- An instruction that acts as NOP has one byte, from the PC it leaves. -/
theorem ActsAsNop.mode_eq : i.mode = .implied := by
  cases hf : i.form with
  | implied o => rw [Instr.mode, hf, Form.mode]
  | branch o rel => exact absurd hf (h.not_branch o rel)
  | jump m => exact absurd hf (h.not_jump m)
  | call target => exact absurd hf (h.not_call target)
  | read | store | modify =>
    have hpc := exec_pc_of_not_transfer (h (nopProbe false)) (by simp [hf]) (by simp [Instr.op, hf, Form.op])
    exact eq_implied_of_length ((BitVec.add_right_inj _).mp hpc)

theorem ActsAsNop.not_accumulator (o : ModifyOp) : i.form ≠ .modify o .accumulator := by
  intro hf
  have hexec := h (nopProbe false)
  rw [exec_modify_accumulator _ hf] at hexec
  exact byteFunction_nopProbe_ne o (congrArg (·.a) (Host.Outcome.next.inj hexec))

theorem ActsAsNop.op_eq {o : ImpliedOp} (hf : i.form = .implied o) : o = .nop := by
  by_contra ho
  obtain ⟨f, hne⟩ := impliedExecutor_nopProbe_ne ho
  have hexec := h (nopProbe f)
  rw [exec_implied _ hf, length_of_implied hf] at hexec
  exact hne (congrArg (·.registers) (Host.Outcome.next.inj hexec))

theorem ActsAsNop.eq_nop : i = .nop := by
  obtain ⟨o, hf⟩ | ⟨o, hf⟩ := form_of_mode_implied h.mode_eq
  · exact absurd hf (h.not_accumulator o)
  · rw [h.op_eq hf] at hf
    exact eq_nop_of_form hf

end

/-- Settles O47: every other instruction differs from NOP in a register, a flag, PC or the cycles, at one of two probes. -/
theorem nopOnlyAdvances : Obligations.NopOnlyAdvances :=
  ⟨encodes_of_check (by decide +kernel), exec_nop, fun _ => ActsAsNop.eq_nop⟩

end Sys2Proof.Machine
end

section
/-! # Proofs: loads, stores and logic (46_load_store_logic.md) -/

namespace Sys2Proof.Machine

/-! ## AND, ORA and EOR (R1006 to R1008) -/

/-- Settles O28: each executor combines the operand into A, and its Z and N are the stated ones. -/
theorem logicCombinesIntoA : Obligations.LogicCombinesIntoA := by
  refine ⟨encodes_of_check (by decide +kernel), encodes_of_check (by decide +kernel),
    encodes_of_check (by decide +kernel), fun i src r s h => ?_⟩
  rw [← setZN_eq_withZN]
  obtain ⟨hf, rfl⟩ | ⟨hf, rfl⟩ | ⟨hf, rfl⟩ := h
  · exact exec_read_past s hf
  · exact exec_read_past s hf
  · exact exec_read_past s hf

/-! ## LDA, LDX and LDY (R1000 to R1002) -/

/-- Settles O29: each executor puts the operand into its register, and its Z and N are the stated ones. -/
theorem loadsWriteTheRegister : Obligations.LoadsWriteTheRegister := by
  refine ⟨encodes_of_check (by decide +kernel), encodes_of_check (by decide +kernel),
    encodes_of_check (by decide +kernel), fun i src s => ?_⟩
  simp only [← setZN_eq_withZN]
  exact ⟨exec_read_past s, exec_read_past s, exec_read_past s⟩

/-! ## STA, STX and STY (R1003 to R1005) -/

/-- No row of a write operation has the `*` (R431, R441). -/
theorem cost_of_store {i : Instr} {o : StoreOp} {dst : MemOperand} (h : i.form = .store o dst) (cross : Bool) :
    cost i cross 0 = i.row.base := by
  simp [cost, row_pageCross, h, isRead]

/-- Moving PC past the instruction leaves the registers that a write operation stores. -/
theorem storedRegister_advance {σ : Type} (o : StoreOp) (c : Cpu σ) (n : Nat) :
    storedRegister o (c.advance n) = storedRegister o c := by
  cases o <;> rfl

theorem exec_store_past {i : Instr} {o : StoreOp} {dst : MemOperand} (s : State) (h : i.form = .store o dst) :
    exec i s = .next
      { s.past i i.row.base with mem := Memory.write s.mem (s.ea dst) (storedRegister o s.toCpu) } := by
  rw [exec_store s h, cost_of_store h, storedRegister_advance]
  rfl

/-- Settles O31: a store writes its register at the effective address, and RAM reads back the latest write. -/
theorem storesWriteTheRegisterAtTheAddress : Obligations.StoresWriteTheRegisterAtTheAddress := by
  refine ⟨encodes_of_check (by decide +kernel), encodes_of_check (by decide +kernel),
    encodes_of_check (by decide +kernel), fun i m v s h => ⟨_, ?_, rfl, fun addr => Memory.read_write s.mem _ addr v⟩⟩
  obtain ⟨hf, rfl⟩ | ⟨hf, rfl⟩ | ⟨hf, rfl⟩ := h
  · exact exec_store_past s hf
  · exact exec_store_past s hf
  · exact exec_store_past s hf

end Sys2Proof.Machine
end

section
/-! # Proofs: the illegal opcode trap, interrupts and the machine's invariant (60_exceptions.md) -/

namespace Sys2Proof.Machine

/-! ## Every operation keeps the canonical form of memory (R202) -/

theorem impliedExecutor_keeps_wf (o : ImpliedOp) {c : Cpu Memory} (hm : Memory.wf c.mem = true) :
    Memory.wf (impliedExecutor Bus.ram o c).mem = true := by
  cases o with
  | brk =>
    rw [impliedExecutor, brkOp_ram]
    exact Memory.wf_write _ _ (Memory.wf_withWordPushed _ _ hm)
  | pha | php => exact Memory.wf_write _ _ hm
  | _ => exact hm

/-- Whatever an instruction does to memory, it does by writes of bytes. -/
theorem exec_keeps_wf {i : Instr} {s t : State} (h : exec i s = .next t) (hm : Memory.wf s.mem = true) :
    Memory.wf t.mem = true := by
  cases hf : i.form with
  | read o src =>
    rw [exec_read s hf] at h
    cases h
    exact (congrArg Memory.wf (readExecutor_mem o _ _)).trans hm
  | store o dst =>
    rw [exec_store s hf] at h
    cases h
    exact Memory.wf_write _ _ hm
  | modify o target =>
    cases target with
    | accumulator =>
      rw [exec_modify_accumulator s hf] at h
      cases h
      exact hm
    | memory m =>
      rw [exec_modify_memory s hf] at h
      cases h
      exact Memory.wf_write _ _ hm
  | branch o rel =>
    rw [exec_branch s hf] at h
    cases h
    exact (congrArg Memory.wf (runBranch_mem i _ rel _)).trans hm
  | jump m =>
    rw [exec_jump s hf] at h
    cases h
    exact hm
  | call target =>
    rw [exec_call s hf, Cpu.pushWord_ram_slots] at h
    cases h
    exact Memory.wf_withWordPushed _ _ hm
  | implied o =>
    rw [exec_implied s hf] at h
    cases h
    exact impliedExecutor_keeps_wf o hm

theorem takeInterrupt_keeps_wf (src : Interrupt) {c : Cpu Memory} (hm : Memory.wf c.mem = true) :
    Memory.wf (c.takeInterrupt Bus.ram src).mem = true := by
  rw [Cpu.takeInterrupt_ram]
  exact Memory.wf_write _ _ (Memory.wf_withWordPushed _ _ hm)

/-! ## The fault latch and the opcode at PC (R1100, R1101) -/

/-- The fetch finds an invalid opcode exactly where the byte at PC has no entry in the dispatch table. -/
theorem Cpu.fetch_ram_eq_invalid_iff {c : Cpu Memory} {opcode : Byte} :
    c.fetch Bus.ram = .invalid opcode c ↔ Memory.read c.mem c.pc = opcode ∧ descr (Memory.read c.mem c.pc) = none := by
  simp only [Cpu.fetch, Cpu.read_ram, descr]
  cases cellAt (Memory.read c.mem c.pc) <;> simp [Cell.descriptor]

theorem fetch_eq_invalid_of_decode {s : State} {opcode : Byte} (h : decode s.window = .invalid opcode) :
    s.toCpu.fetch Bus.ram = .invalid opcode s.toCpu := by
  have hbytes : decode [Memory.read s.mem s.pc, Memory.read s.mem (s.pc + 1), Memory.read s.mem (s.pc + 2)] =
    .invalid opcode := h
  rw [Cpu.fetch_ram, hbytes]

theorem State.latchAgrees_iff {s : State} :
    s.latchAgrees = true ↔
      ∀ opcode pc, s.fault = some (opcode, pc) → pc = s.pc ∧ descr opcode = none ∧ s.peek pc = opcode := by
  cases hf : s.fault with
  | none => simp [State.latchAgrees, hf]
  | some latch =>
    obtain ⟨opcode, pc⟩ := latch
    simp only [State.latchAgrees, hf, Bool.and_eq_true, beq_iff_eq, Option.isNone_iff_eq_none, and_assoc,
      Option.some.injEq]
    exact ⟨fun h _ _ heq => by cases heq; exact h, fun h => h opcode pc rfl⟩

/-! ## The invariant -/

/-- The step that latches a fault records what the fetch has just found at PC. -/
theorem inv_raiseIllegalOpcode {s : State} {opcode : Byte} (hm : Memory.wf s.mem = true)
    (ho : s.toCpu.fetch Bus.ram = .invalid opcode s.toCpu) :
    (⟨s.toCpu.raiseIllegalOpcode opcode⟩ : State).inv = true := by
  obtain ⟨rfl, hinvalid⟩ := Cpu.fetch_ram_eq_invalid_iff.mp ho
  refine State.inv_iff.mpr ⟨hm, State.latchAgrees_iff.mpr fun opcode pc hlatch => ?_⟩
  cases hlatch
  exact ⟨rfl, hinvalid, rfl⟩

/-- Settles O13: by the cases of a step, of which one alone latches a fault. -/
theorem invariantIsKeptByEveryStep : Obligations.InvariantIsKeptByEveryStep := by
  intro s t hs h
  obtain ⟨hm, -⟩ := State.inv_iff.mp hs
  obtain ⟨hf, ⟨src, hp, rfl⟩ | ⟨hp, opcode, ho, rfl⟩ | ⟨hp, i, hi, hexec⟩⟩ := step_cases h
  · have hfault : (s.toCpu.takeInterrupt Bus.ram src).fault = none := by rw [Cpu.takeInterrupt_ram, hf]
    exact State.inv_of_no_fault hfault (takeInterrupt_keeps_wf src hm)
  · exact inv_raiseIllegalOpcode hm ho
  · obtain ⟨-, -, hfault⟩ := exec_control hexec
    exact State.inv_of_no_fault (hfault.trans hf) (exec_keeps_wf hexec hm)

theorem Reachable.inv {s : State} (h : Reachable s) : s.inv = true := by
  obtain ⟨-, -, hcreate, hcalls, -⟩ := invariantHoldsAtReset
  induction h with
  | create memInit hm => exact hcreate memInit hm
  | step s t _ hstep ih => exact invariantIsKeptByEveryStep s t ih hstep
  | hostReset s _ ih =>
    obtain ⟨hreset, -, -⟩ := hcalls s ih
    exact hreset
  | signalNMI s _ ih =>
    obtain ⟨-, hnmi, -⟩ := hcalls s ih
    exact hnmi
  | setIRQ s level _ ih =>
    obtain ⟨-, -, hirq⟩ := hcalls s ih
    exact hirq level

/-- Settles O15: the only fault a step reports is the latched one, and the invariant says what the latch holds. -/
theorem reachableStatesStopOnlyAtAnInvalidOpcode : Obligations.ReachableStatesStopOnlyAtAnInvalidOpcode := by
  refine ⟨fun s hs => ⟨step_completes, fun r hr => ?_⟩, step_ne_refused⟩
  obtain ⟨opcode, pc, hf, rfl⟩ := step_eq_fault_iff.mp hr
  obtain ⟨-, hlatch⟩ := State.inv_iff.mp hs.inv
  obtain ⟨rfl, hinvalid, rfl⟩ := State.latchAgrees_iff.mp hlatch opcode pc hf
  exact ⟨rfl, hinvalid⟩

/-! ## The trap, and the two interrupts (R1101, R1110, R1111, R1113) -/

/-- Settles O9: the fetch finds the invalid opcode that the decoder does, and the step latches it. -/
theorem invalidOpcodeLatchesTheFault : Obligations.InvalidOpcodeLatchesTheFault := by
  refine ⟨fun s opcode hf hq h => ?_, fun _ _ _ => step_of_fault⟩
  have ho := fetch_eq_invalid_of_decode h
  obtain ⟨hbyte, -⟩ := Cpu.fetch_ram_eq_invalid_iff.mp ho
  exact ⟨hbyte.symm, step_of_invalid hf ((Cpu.interruptPending_eq_none _).mpr hq) ho⟩

/-- Settles O10: a pending NMI is the first that the sampling looks at, and its entry is the shared one. -/
theorem pendingNmiIsTaken : Obligations.PendingNmiIsTaken := by
  intro s hf hn
  rw [step_of_interrupt hf (Cpu.interruptPending_of_nmi _ hn), Cpu.takeInterrupt_ram]
  rfl

/-- Settles O11: with no NMI pending the sampling comes to the IRQ line, which the entry leaves alone. -/
theorem unmaskedIrqIsTaken : Obligations.UnmaskedIrqIsTaken := by
  intro s hf hn hq hi
  rw [step_of_interrupt hf (Cpu.interruptPending_of_irq hn hq hi), Cpu.takeInterrupt_ram]
  rfl

end Sys2Proof.Machine
end

section
/-! # Proofs: the base cycles by class, and the host's reset (70_reset_and_hazards.md) -/

namespace Sys2Proof.Machine

/-! ## The summary of cycles (R1220) -/

/-- Settles O7: row by row, since each constructor fixes its class and mode, and with them the summary's entry. -/
theorem baseCyclesByClass : Obligations.BaseCyclesByClass := by
  intro i
  cases i <;> rfl

/-! ## reset() (R1200, R1202) -/

/-- P after reset has I and U set alone (R7 P_RESET). -/
theorem unpack_pReset :
    Flags.unpack Config.pReset =
      { c := false, z := false, i := true, d := false, b := false, u := true, v := false, n := false } := by
  decide

/-- A second reset of an instance on RAM finds the vector that the first one found (R1202). -/
theorem hostReset_ram_idempotent (c : Cpu Memory) : (c.hostReset Bus.ram).hostReset Bus.ram = c.hostReset Bus.ram := by
  rw [Cpu.hostReset_ram, Cpu.hostReset_ram]

/-- `reset()` makes the accesses of its vector read and no other (R1200). -/
theorem recordShapes_hostReset {σ : Type} (B : Bus σ) (c : Cpu (σ × List Access)) :
    recordShapes (c.hostReset B.recording).mem =
      recordShapes c.mem ++ [(false, Config.resetVector), (false, Config.resetVector + 1)] :=
  recordShapes_readWord B c Config.resetVector

/-- Settles O56: reset writes constants and the vector, and reads nothing that it writes. -/
theorem hostResetWritesConstantsAndTheVector : Obligations.HostResetWritesConstantsAndTheVector := by
  refine ⟨fun s => ⟨?_, congrArg State.mk (hostReset_ram_idempotent s.toCpu)⟩, fun σ B c hempty => ?_⟩
  · rw [Cpu.hostReset_ram, unpack_pReset]
    rfl
  · have hshapes := recordShapes_hostReset B c
    rwa [recordShapes, recordShapes, hempty] at hshapes

end Sys2Proof.Machine
end
